-- ==== Sys2Proof/Word.lean ====
section
/-! DEFINITION. Word.lean: the bit-vector types of the hardware's Signals (spec/00_scope.md R7, R8).
Bit 0 is the least significant bit of every value (R10). -/

namespace Sys2Proof

/-- A data word: ALU operands and result, register and memory words, the immediate (R7, `XLEN`). -/
abbrev Word := BitVec 32

/-- A one-bit Signal: `true` is 1, `false` is 0 (R11). -/
abbrev Bit := BitVec 1

/-- A register index, `REG_ADDR_W` bits (R7). -/
abbrev RegIdx := BitVec 5

/-- The instruction fragment given to the Sign-Extension unit, `RAW_W` bits (R7). -/
abbrev Raw := BitVec 25

/-- The immediate field `gathered_imm`, `IMM_W` bits (R7). -/
abbrev ImmField := BitVec 12

/-- The opcode `op`, `OP_W` bits (R7). -/
abbrev Opcode := BitVec 7

/-- An `alu_control` code, `ALU_CTRL_W` bits (R7). -/
abbrev AluCode := BitVec 3

/-- An `imm_src` / `imm_source` code, `IMM_SRC_W` bits (R7). -/
abbrev ImmCode := BitVec 2

/-- A `control_op` code, `CONTROL_OP_W` bits (R7). -/
abbrev CtrlCode := BitVec 2

end Sys2Proof
end

