-- ==== Sys2Proof/Config.lean ====
section
/-! DEFINITION. Config.lean: the fixed constants of the build (spec/00_scope.md R7).
The hardware has no free value (spec/93_implementation_defined.md, closing sentence of Part 1), so no opaque constant
stands here; the open parameters `COMPOSE` and `WIRE_LATENCY` are data of State (`Machine.Wiring`), log entry 9. -/

namespace Sys2Proof.Config

/-- `NREGS`: words in the Register File (R7, R30). -/
abbrev nregs : Nat := 32

/-- `MEM_WORDS`: words in the Data Memory, 64 in this build (R7, R60); log entry 14. -/
abbrev memWords : Nat := 64

/-- `MEM_BYTES` = `4 * MEM_WORDS`: the byte addresses below it select a word (R7, R62). -/
abbrev memBytes : Nat := 4 * memWords

/-- The one recognised opcode, the "load-word opcode" (spec/30_encoding.md R92). -/
abbrev loadOpcode : Opcode := 0b0000011#7

end Sys2Proof.Config
end

