-- ==== Sys2Proof/Syntax.lean ====
section
/-! DEFINITION. Syntax.lean: the rows of spec/opcode_table.json (spec/30_encoding.md R112), one constructor each, the
selector fields they are codes of, and the 32-bit words of the reference datapath. -/

namespace Sys2Proof

/-- The four selector fields whose codes the opcode table lists (R112, the table's `format`). -/
inductive Port where
  /-- `op`, 7 bits, read by the Controller's first stage (R92) -/
  | op7
  /-- `alu_control`, 3 bits, read by the ALU (R93) -/
  | aluControl3
  /-- `imm_src`, 2 bits, read by the Sign-Extension unit (R94) -/
  | immSrc2
  /-- `control_op`, 2 bits, read by the Controller's second stage (R95) -/
  | controlOp2
deriving DecidableEq, Repr

/-- Width in bits of a selector field (R91). -/
def Port.width : Port → Nat
  | .op7 => 7
  | .aluControl3 => 3
  | .immSrc2 => 2
  | .controlOp2 => 2

/-- A row of the opcode table: one code of one selector field. The operands of a row are not in its code: they are the
other Inputs of the block that reads the code (`src1`, `src2`, `raw`; R91), so a constructor carries none. OTHER stands for
127 codes and carries which of them it is. -/
inductive Instr where
  /-- LOAD: `op = 0b0000011` (R223) -/
  | load
  /-- OTHER: any other `op` (R224) -/
  | other (op : Opcode)
  /-- ALU_ADD: `alu_control = 0b000` (R143) -/
  | aluAdd
  /-- ALU_ZERO_001 (R144) -/
  | aluZero001
  /-- ALU_ZERO_010 (R144) -/
  | aluZero010
  /-- ALU_ZERO_011 (R144) -/
  | aluZero011
  /-- ALU_ZERO_100 (R144) -/
  | aluZero100
  /-- ALU_ZERO_101 (R144) -/
  | aluZero101
  /-- ALU_ZERO_110 (R144) -/
  | aluZero110
  /-- ALU_ZERO_111: the Controller's force-zero code (R144) -/
  | aluZero111
  /-- IMM_UPPER12: `imm_src = 0b00` (R162) -/
  | immUpper12
  /-- IMM_ZERO_01 (R163) -/
  | immZero01
  /-- IMM_ZERO_10 (R163) -/
  | immZero10
  /-- IMM_ZERO_11 (R163) -/
  | immZero11
  /-- CTRLOP_ADD: `control_op = 0b00` (R225) -/
  | ctrlopAdd
  /-- CTRLOP_FORCEZERO_01 (R225) -/
  | ctrlopForcezero01
  /-- CTRLOP_FORCEZERO_10 (R225) -/
  | ctrlopForcezero10
  /-- CTRLOP_FORCEZERO_11 (R225) -/
  | ctrlopForcezero11
deriving DecidableEq, Repr

/-- The selector field a row is a code of (R112). -/
def Instr.port : Instr → Port
  | .load => .op7
  | .other _ => .op7
  | .aluAdd => .aluControl3
  | .aluZero001 => .aluControl3
  | .aluZero010 => .aluControl3
  | .aluZero011 => .aluControl3
  | .aluZero100 => .aluControl3
  | .aluZero101 => .aluControl3
  | .aluZero110 => .aluControl3
  | .aluZero111 => .aluControl3
  | .immUpper12 => .immSrc2
  | .immZero01 => .immSrc2
  | .immZero10 => .immSrc2
  | .immZero11 => .immSrc2
  | .ctrlopAdd => .controlOp2
  | .ctrlopForcezero01 => .controlOp2
  | .ctrlopForcezero10 => .controlOp2
  | .ctrlopForcezero11 => .controlOp2

/-- A code as it is presented: the selector field and the value on it. The value is a number, so that one too wide for
the field can be written and is then refused by the decoder, never truncated (R130). -/
structure Presented where
  port : Port
  code : Nat
deriving DecidableEq, Repr

/-- A 32-bit word of the reference datapath, as the spec writes it (R100, R110, R111). -/
inductive DatapathWord where
  /-- `lw rd, imm(rs1)`; `func3` is ignored by the hardware and every value of it is admitted (R100) -/
  | lw (rd rs1 : RegIdx) (imm : ImmField) (func3 : BitVec 3)
  /-- `.word w`: any word whose `op` is not the load opcode (R111) -/
  | word (w : Word)
deriving DecidableEq, Repr

/-- The assembler form `lw rd, imm(rs1)`, which the spec encodes with `func3 = 0b010` (R110). -/
def DatapathWord.lwAsm (rd rs1 : RegIdx) (imm : ImmField) : DatapathWord :=
  .lw rd rs1 imm 0b010#3

end Sys2Proof
end

