-- ==== Sys2Proof/WellFormed.lean ====
section
/-! DEFINITION. WellFormed.lean: which terms of the syntax name something the hardware has. Three checks: an OTHER row's
code is not LOAD's; a presented code fits its field; a `.word` is not a load. -/

namespace Sys2Proof

/-- OTHER stands for the 127 values of `op` other than the load opcode (R92); every other row is well formed. -/
def Instr.wf : Instr → Bool
  | .other op => op != Config.loadOpcode
  | .load => true
  | .aluAdd => true
  | .aluZero001 => true
  | .aluZero010 => true
  | .aluZero011 => true
  | .aluZero100 => true
  | .aluZero101 => true
  | .aluZero110 => true
  | .aluZero111 => true
  | .immUpper12 => true
  | .immZero01 => true
  | .immZero10 => true
  | .immZero11 => true
  | .ctrlopAdd => true
  | .ctrlopForcezero01 => true
  | .ctrlopForcezero10 => true
  | .ctrlopForcezero11 => true

/-- A presented code fits the width of its field (R22, R130). -/
def Presented.wf (p : Presented) : Bool :=
  decide (p.code < 2 ^ p.port.width)

/-- A `.word` is a word whose `op` is not the load opcode; those words are written `lw` (R110, R111). -/
def DatapathWord.wf : DatapathWord → Bool
  | .lw _ _ _ _ => true
  | .word w => w.extractLsb' 0 7 != Config.loadOpcode

end Sys2Proof
end

