-- ==== Sys2Proof/Decode.lean ====
section
/-! DEFINITION. Decode.lean: from codes and words to rows, and back (spec/30_encoding.md R91 to R100, R112).
No code of any field is illegal (R104); the only thing a decoder can refuse is a number too wide for its field (R130). -/

namespace Sys2Proof

/-- Why a presented code is refused. -/
inductive DecodeError where
  /-- the number does not fit the selector field: it is refused and never truncated (R130) -/
  | codeTooWide (port : Port) (code : Nat)
deriving DecidableEq, Repr

/-- `op`: all seven bits are matched; the default row comes last (R92, R112). -/
def decodeOp (op : Opcode) : Instr :=
  if op = Config.loadOpcode then .load else .other op

/-- `alu_control` (R93). -/
def decodeAluControl (c : AluCode) : Instr :=
  if c = 0b000#3 then .aluAdd
  else if c = 0b001#3 then .aluZero001
  else if c = 0b010#3 then .aluZero010
  else if c = 0b011#3 then .aluZero011
  else if c = 0b100#3 then .aluZero100
  else if c = 0b101#3 then .aluZero101
  else if c = 0b110#3 then .aluZero110
  else .aluZero111

/-- `imm_src` (R94). -/
def decodeImmSrc (c : ImmCode) : Instr :=
  if c = 0b00#2 then .immUpper12
  else if c = 0b01#2 then .immZero01
  else if c = 0b10#2 then .immZero10
  else .immZero11

/-- `control_op` (R95). -/
def decodeControlOp (c : CtrlCode) : Instr :=
  if c = 0b00#2 then .ctrlopAdd
  else if c = 0b01#2 then .ctrlopForcezero01
  else if c = 0b10#2 then .ctrlopForcezero10
  else .ctrlopForcezero11

/-- The decoder: total on every presented number. -/
def decode (p : Presented) : Except DecodeError Instr :=
  if p.code < 2 ^ p.port.width then
    match p.port with
    | .op7 => .ok (decodeOp (BitVec.ofNat 7 p.code))
    | .aluControl3 => .ok (decodeAluControl (BitVec.ofNat 3 p.code))
    | .immSrc2 => .ok (decodeImmSrc (BitVec.ofNat 2 p.code))
    | .controlOp2 => .ok (decodeControlOp (BitVec.ofNat 2 p.code))
  else .error (.codeTooWide p.port p.code)

/-- The encoder: the code of each row, from the tables of R92 to R95. -/
def encode : Instr → Presented
  | .load => ⟨.op7, 0b0000011⟩
  | .other op => ⟨.op7, op.toNat⟩
  | .aluAdd => ⟨.aluControl3, 0b000⟩
  | .aluZero001 => ⟨.aluControl3, 0b001⟩
  | .aluZero010 => ⟨.aluControl3, 0b010⟩
  | .aluZero011 => ⟨.aluControl3, 0b011⟩
  | .aluZero100 => ⟨.aluControl3, 0b100⟩
  | .aluZero101 => ⟨.aluControl3, 0b101⟩
  | .aluZero110 => ⟨.aluControl3, 0b110⟩
  | .aluZero111 => ⟨.aluControl3, 0b111⟩
  | .immUpper12 => ⟨.immSrc2, 0b00⟩
  | .immZero01 => ⟨.immSrc2, 0b01⟩
  | .immZero10 => ⟨.immSrc2, 0b10⟩
  | .immZero11 => ⟨.immSrc2, 0b11⟩
  | .ctrlopAdd => ⟨.controlOp2, 0b00⟩
  | .ctrlopForcezero01 => ⟨.controlOp2, 0b01⟩
  | .ctrlopForcezero10 => ⟨.controlOp2, 0b10⟩
  | .ctrlopForcezero11 => ⟨.controlOp2, 0b11⟩

/-! ### The 32-bit words of the reference datapath -/

/-- The fields a 32-bit instruction word is cut into (R99, R244; the positions are the spec's decision D10). -/
structure WordFields where
  op : Opcode
  rd : RegIdx
  func3 : BitVec 3
  rs1 : RegIdx
  rs2 : RegIdx
  func7 : BitVec 7
  raw : Raw
deriving DecidableEq, Repr

/-- Cutting a word: `op = instr[6:0]`, `rd = instr[11:7]`, `func3 = instr[14:12]`, `rs1 = instr[19:15]`,
`rs2 = instr[24:20]`, `func7 = instr[31:25]`, `raw = instr[31:7]` (R244). -/
def cutWord (w : Word) : WordFields where
  op := w.extractLsb' 0 7
  rd := w.extractLsb' 7 5
  func3 := w.extractLsb' 12 3
  rs1 := w.extractLsb' 15 5
  rs2 := w.extractLsb' 20 5
  func7 := w.extractLsb' 25 7
  raw := w.extractLsb' 7 25

/-- Decoding a whole word: `op` alone is matched (R100, R111). -/
def decodeWord (w : Word) : DatapathWord :=
  if (cutWord w).op = Config.loadOpcode then
    .lw (cutWord w).rd (cutWord w).rs1 (w.extractLsb' 20 12) (cutWord w).func3
  else .word w

/-- Encoding a whole word: `imm[11:0] rs1 func3 rd 0000011` (R100), as the listings of spec/95_test_vectors.md compute it:
`(imm << 20) | (rs1 << 15) | (func3 << 12) | (rd << 7) | 0b0000011`. -/
def encodeWord : DatapathWord → Word
  | .lw rd rs1 imm func3 =>
    imm.setWidth 32 <<< 20 ||| rs1.setWidth 32 <<< 15 ||| func3.setWidth 32 <<< 12 ||| rd.setWidth 32 <<< 7 |||
      Config.loadOpcode.setWidth 32
  | .word w => w

/-! ### The host's numbering of the opcode table's rows -/

/-- What a bare number of the opcode table is presented as. The table numbers the codes of four fields alike and a number
does not say which field it is for (log entry 2, DESIGN CHOICE). With a field's own width (`nbits` 3, 2, 7) the number is
a code of `alu_control`, of `imm_src` or of `op`. With whole bytes it is looked up in the table's specific rows, LOAD
first, then those of `alu_control`, and the default row OTHER comes last (R112); a number that is no such code is read as a
32-bit word of the reference datapath, whose `op` is `w[6:0]` (R99). `control_op` is a Local: nothing outside the
Controller presents a code on it (R45), so no number is read as one. -/
def tablePresented (nbits w : Nat) : Option Presented :=
  if nbits = 3 then some ⟨.aluControl3, w⟩
  else if nbits = 2 then some ⟨.immSrc2, w⟩
  else if nbits = 7 then some ⟨.op7, w⟩
  else if w = 3 then some ⟨.op7, w⟩
  else if w < 8 then some ⟨.aluControl3, w⟩
  else if w < 2 ^ 32 then some ⟨.op7, w % 128⟩
  else none

/-- The row the decoder reads from a bare number of the opcode table. -/
def decodeTableWord (nbits w : Nat) : Option Instr :=
  match tablePresented nbits w with
  | some p => (decode p).toOption
  | none => none

end Sys2Proof
end

