-- ==== Sys2Proof/Machine/State.lean ====
section
/-! DEFINITION. Machine/State.lean: the state of the hardware (spec/10_state.md): every Signal of every block with its
current and its pending value, the two storage arrays, the connections that are made, and the stimulus rows the
environment will offer. Plain data throughout. -/

namespace Sys2Proof.Machine

/-! ### The Signals a block's environment and its readers name -/

/-- Every Input Signal of every block (R24 to R28), and the two inputs of the reference datapath (R243), which are cut into
block Inputs when they are offered. -/
inductive InputId where
  /-- ALU `alu_control`, 3 bits -/
  | aluControl
  /-- ALU `src1`, 32 bits -/
  | src1
  /-- ALU `src2`, 32 bits -/
  | src2
  /-- Sign-Extension `raw`, 25 bits -/
  | raw
  /-- Sign-Extension `imm_src`, 2 bits -/
  | immSrc
  /-- Register File `rst_n`, 1 bit -/
  | rfRstN
  /-- Register File `address1`, 5 bits -/
  | address1
  /-- Register File `address2`, 5 bits -/
  | address2
  /-- Register File `address3`, 5 bits -/
  | address3
  /-- Register File `write_data`, 32 bits -/
  | rfWriteData
  /-- Register File `write_enable`, 1 bit -/
  | rfWriteEnable
  /-- Data Memory `rst_n`, 1 bit -/
  | dmRstN
  /-- Data Memory `address`, 32 bits -/
  | address
  /-- Data Memory `write_data`, 32 bits -/
  | dmWriteData
  /-- Data Memory `write_enable`, 1 bit -/
  | dmWriteEnable
  /-- Controller `op`, 7 bits -/
  | op
  /-- Controller `func3`, 3 bits -/
  | func3
  /-- Controller `func7`, 7 bits -/
  | func7
  /-- Controller `alu_zero`, 1 bit -/
  | aluZero
  /-- reference datapath `instr`, 32 bits (R243) -/
  | instr
  /-- reference datapath `rst_n`, 1 bit, which drives the `rst_n` of both clocked blocks (R243, R245) -/
  | rstN
deriving DecidableEq, Repr

/-- Every Output Signal of every block (R24 to R28). -/
inductive OutputId where
  /-- ALU `result`, 32 bits -/
  | result
  /-- ALU `zero`, 1 bit -/
  | zero
  /-- Sign-Extension `immediate`, 32 bits -/
  | immediate
  /-- Register File `read_data1`, 32 bits -/
  | readData1
  /-- Register File `read_data2`, 32 bits -/
  | readData2
  /-- Data Memory `read_data`, 32 bits -/
  | readData
  /-- Controller `alu_control`, 3 bits -/
  | ctrlAluControl
  /-- Controller `imm_source`, 2 bits -/
  | immSource
  /-- Controller `mem_write`, 1 bit -/
  | memWrite
  /-- Controller `reg_write`, 1 bit -/
  | regWrite
deriving DecidableEq, Repr

/-- The five blocks (R1, R4). -/
inductive Block where
  | controller
  | signExtension
  | alu
  | registerFile
  | dataMemory
deriving DecidableEq, Repr

/-! ### The Signals of each block -/

/-- The Data Memory's storage as cells (word index, word), strictly rising by index, no word 0 listed, every index below
`MEM_WORDS`: an unlisted index holds 0, which is what every word holds at construction (R50). The unit is the word: the
hardware has no byte view (R67, log entry 7). -/
abbrev Memory := List (Nat × Word)

/-- ALU Signals (R24). -/
structure AluSignals where
  aluControl : AluCode
  src1 : Word
  src2 : Word
  result : Word
  zero : Bit
deriving DecidableEq, Repr

/-- Sign-Extension unit Signals (R25). -/
structure SeSignals where
  raw : Raw
  immSrc : ImmCode
  gatheredImm : ImmField
  immediate : Word
deriving DecidableEq, Repr

/-- Register File Signals (R26); `storage` is `rf`. -/
structure RfSignals where
  rstN : Bit
  address1 : RegIdx
  address2 : RegIdx
  address3 : RegIdx
  writeData : Word
  writeEnable : Bit
  readData1 : Word
  readData2 : Word
  storage : Vector Word Config.nregs
deriving DecidableEq, Repr

/-- Data Memory Signals (R27); `storage` is `dm`. -/
structure DmSignals where
  rstN : Bit
  address : Word
  writeData : Word
  writeEnable : Bit
  readData : Word
  storage : Memory
deriving DecidableEq, Repr

/-- Controller Signals (R28). -/
structure CtrlSignals where
  op : Opcode
  func3 : BitVec 3
  func7 : BitVec 7
  aluZero : Bit
  controlOp : CtrlCode
  aluControl : AluCode
  immSource : ImmCode
  memWrite : Bit
  regWrite : Bit
deriving DecidableEq, Repr

/-- One value of every Signal (R29: the tables of R24 to R28 are complete). -/
structure Signals where
  alu : AluSignals
  se : SeSignals
  rf : RfSignals
  dm : DmSignals
  ctrl : CtrlSignals
deriving DecidableEq, Repr

/-! ### The connections between blocks -/

/-- How a consumer Input is driven: by the environment (R242), or by its producer Output with `WIRE_LATENCY` 0 (the
producer's value of this cycle) or 1 (the producer's committed value) (R132). -/
inductive Link where
  | environment
  | direct
  | registered
deriving DecidableEq, Repr

/-- The block-to-block connections the spec names: the four of R240 and the rest of R245. -/
inductive Connection where
  /-- Controller `alu_control` to ALU `alu_control` (R240) -/
  | aluControl
  /-- Controller `imm_source` to Sign-Extension `imm_src` (R240) -/
  | immSrc
  /-- Controller `mem_write` to Data Memory `write_enable` (R240) -/
  | memWrite
  /-- Controller `reg_write` to Register File `write_enable` (R240) -/
  | regWrite
  /-- ALU `zero` to Controller `alu_zero` (R245, R250) -/
  | aluZero
  /-- Register File `read_data1` to ALU `src1` (R245) -/
  | src1
  /-- Sign-Extension `immediate` to ALU `src2` (R245) -/
  | src2
  /-- ALU `result` to Data Memory `address` (R245) -/
  | address
  /-- Register File `read_data2` to Data Memory `write_data` (R245) -/
  | dmWriteData
  /-- Data Memory `read_data` to Register File `write_data` (R245) -/
  | rfWriteData
deriving DecidableEq, Repr

/-- Which connections are made, and with which latency: the open parameters `COMPOSE` and `WIRE_LATENCY`, connection by
connection (R132, R243; log entry 9). -/
structure Wiring where
  aluControl : Link
  immSrc : Link
  memWrite : Link
  regWrite : Link
  aluZero : Link
  src1 : Link
  src2 : Link
  address : Link
  dmWriteData : Link
  rfWriteData : Link
deriving DecidableEq, Repr

/-- `COMPOSE` off: the five blocks stand alone (R131, R243). -/
def Wiring.standAlone : Wiring :=
  ⟨.environment, .environment, .environment, .environment, .environment, .environment, .environment, .environment,
    .environment, .environment⟩

/-- `COMPOSE` on: the reference datapath, every connection within the cycle (R245). -/
def Wiring.reference : Wiring :=
  ⟨.direct, .direct, .direct, .direct, .direct, .direct, .direct, .direct, .direct, .direct⟩

/-! ### The state -/

/-- One row of a stimulus table: the values the environment offers for one cycle, in order (R110, R282). A value is a
number, so that one too wide for its Input can be offered and is then caught (R130). -/
abbrev StimulusRow := List (InputId × Nat)

/-- The state of the hardware. -/
structure State where
  /-- the current value of every Signal: visible to readers this cycle (R20) -/
  current : Signals
  /-- the pending value of every Signal: staged, not yet visible (R20, R44) -/
  pending : Signals
  /-- whether the blocks have been evaluated since construction: before their first evaluation the Output cells are no
  output of any cycle and nothing may read them (R48; log entry 10). One bit stands for the five blocks, because every cycle
  evaluates all of them (R131). -/
  hasEvaluated : Bool
  /-- the connections that are made (R132, R240, R245) -/
  wiring : Wiring
  /-- the rows the environment will offer, the next cycle's first (R110) -/
  stimulus : List StimulusRow
deriving DecidableEq, Repr

/-- The named failures of a cycle (spec/60_exceptions.md R260); a failed cycle commits nothing and ends the run (R266). -/
inductive Fault where
  /-- Raised by the Data Memory's update when `address >> 2 >= MEM_WORDS` (R207, R263). SAFE: the source leaves the case
  open and the spec decides that the cycle fails (decision D5); the model stops there too. -/
  | addressOutOfRange (address : Word)
  /-- Raised when the environment offers an Input a value of `2^W` or more, before any evaluation (R130, R261). SAFE: the
  hardware's port cannot carry such a value. -/
  | widthOverflow (signal : InputId) (value : Nat)
deriving DecidableEq, Repr

/-- Why a step has nothing to run. -/
inductive Refusal where
  /-- Raised by `takeStimulus` in the reference datapath when the environment has supplied no further pair: the run ended
  after the last pair's clock edge (spec/46_composition.md R252, log entry 23). SAFE: no word is presented, so no instruction
  is turned away; the model stops where the spec's run does. -/
  | endOfRun
  /-- Raised by an arm of `exec` whose row has no meaning yet. SAFE. No arm of this model raises it. -/
  | notModelled (mnemonic : String)
deriving DecidableEq, Repr

/-- Every Signal "created at block construction with value 0" (R23, R50). -/
def Signals.construction : Signals where
  alu := { aluControl := 0, src1 := 0, src2 := 0, result := 0, zero := 0 }
  se := { raw := 0, immSrc := 0, gatheredImm := 0, immediate := 0 }
  rf := { rstN := 0, address1 := 0, address2 := 0, address3 := 0, writeData := 0, writeEnable := 0, readData1 := 0,
          readData2 := 0, storage := Vector.replicate Config.nregs 0 }
  dm := { rstN := 0, address := 0, writeData := 0, writeEnable := 0, readData := 0, storage := [] }
  ctrl := { op := 0, func3 := 0, func7 := 0, aluZero := 0, controlOp := 0, aluControl := 0, immSource := 0,
            memWrite := 0, regWrite := 0 }

/-- The construction state `S_0` (R290): every Signal 0, no block evaluated yet (R48), the blocks standing alone (R243), no
stimulus row. -/
def State.reset : State where
  current := Signals.construction
  pending := Signals.construction
  hasEvaluated := false
  wiring := Wiring.standAlone
  stimulus := []

end Sys2Proof.Machine
end

