-- ==== Sys2Proof/Machine/Flags.lean ====
section
/-! DEFINITION. Machine/Flags.lean: the one flag of the hardware, the ALU Output `zero` (spec/10_state.md R41,
spec/41_alu.md R146). It is not stored: there is no carry, overflow or condition code. -/

namespace Sys2Proof.Machine

/-- `zero` is 1 exactly when all 32 bits of the `result` of the same evaluation are 0 (R146). -/
def zeroFlag (result : Word) : Bit :=
  if result = 0x00000000#32 then 1#1 else 0#1

end Sys2Proof.Machine
end

