-- ==== Sys2Proof/Machine/Operands.lean ====
section
/-! DEFINITION. Machine/Operands.lean: the operand forms: the immediate of the Sign-Extension unit
(spec/42_sign_extension.md), a byte address of the Data Memory (spec/20_memory.md R61 to R63), a register index
(spec/43_register_file.md R183). -/

namespace Sys2Proof.Machine

/-- `gathered_imm = raw[24:13]` for `imm_src = 0b00` (R162): bit 24 of `raw` is bit 11 of the field; bits 12..0 are
ignored. -/
def upper12 (raw : Raw) : ImmField :=
  raw.extractLsb' 13 12

/-- Sign extension as the source words it: zero-widen, and OR with `0xFFFFF000` when bit 11 is set (R164). -/
def signExtendImm (g : ImmField) : Word :=
  if g.getLsbD 11 then g.setWidth 32 ||| 0xFFFFF000#32 else g.setWidth 32

/-- The word a byte address selects, `idx(address) = address >> 2` (R61). -/
def wordIndex (addr : Word) : Nat :=
  (addr >>> 2).toNat

/-- `idx(address) < MEM_WORDS`: the address selects a word (R62). -/
def inRange (addr : Word) : Bool :=
  decide (wordIndex addr < Config.memWords)

/-- `address[1:0] == 0b00` (R63). -/
def wordAligned (addr : Word) : Bool :=
  addr.extractLsb' 0 2 == 0b00#2

/-- `RFRead(rf, a)`: what a read port returns; index 0 reads 0 whatever `rf[0]` holds (R182, R183). -/
def rfRead (rf : Vector Word Config.nregs) (a : RegIdx) : Word :=
  if a = 0#5 then 0x00000000#32 else rf[a.toNat]'(a.isLt)

end Sys2Proof.Machine
end

