-- ==== Sys2Proof/Machine/Ops.lean ====
section
/-! DEFINITION. Machine/Ops.lean: the named operations the meanings and the cycle are made of: memory and register
storage, the staging of a block's pending values, the assignment of Inputs, the connections, the commit. The hardware takes
no exception and returns from none (spec/60_exceptions.md R270, R271); a failed cycle answers a fault (R266). -/

namespace Sys2Proof.Machine

/-- Going on after one part of a cycle; a fault or a refusal ends the cycle (R266). -/
def andThen (o : Host.Outcome State Fault Refusal) (f : State → Host.Outcome State Fault Refusal) :
    Host.Outcome State Fault Refusal :=
  match o with
  | .next s => f s
  | .fault r => .fault r
  | .refused r => .refused r

/-! ### Storage of the Data Memory -/

/-- The word with index `w`; an unlisted word is 0 (R50, R213). -/
def Memory.lookup : Memory → Nat → Word
  | [], _ => 0#32
  | (k, x) :: r, w => if k = w then x else Memory.lookup r w

/-- One cell put before cells of higher index; a cell that would hold 0 is not listed. -/
def Memory.putCell (w : Nat) (v : Word) (r : Memory) : Memory :=
  if v = 0#32 then r else (w, v) :: r

/-- Replacing all 32 bits of the word with index `w` (R68), in the canonical form: storing 0 removes the cell. -/
def Memory.store : Memory → Nat → Word → Memory
  | [], w, v => Memory.putCell w v []
  | (k, x) :: r, w, v =>
    if w < k then Memory.putCell w v ((k, x) :: r)
    else if w = k then Memory.putCell w v r
    else (k, x) :: Memory.store r w v

/-- The canonical form from index `lo` on: strictly rising indices below `MEM_WORDS`, no word 0. -/
def Memory.wfFrom : Nat → Memory → Bool
  | _, [] => true
  | lo, (k, x) :: r => decide (lo ≤ k) && decide (k < Config.memWords) && (x != 0#32) && Memory.wfFrom (k + 1) r

/-- The canonical form of a memory: equal memories are equal lists. -/
def Memory.wf (m : Memory) : Bool :=
  Memory.wfFrom 0 m

/-- Every word 0: the storage at construction and after a reset cycle (R50, R206). -/
def Memory.cleared : Memory := []

/-- `MemRead(addr, 4)`: the low two bits of the address are ignored; an out-of-range address is `AddressOutOfRange`
(R64). -/
def memRead (m : Memory) (addr : Word) : Except Fault Word :=
  if inRange addr then .ok (Memory.lookup m (wordIndex addr)) else .error (.addressOutOfRange addr)

/-- `MemWrite(addr, 4, v)`: a misaligned write is no write and no error, and that test comes first (R65). -/
def memWrite (m : Memory) (addr v : Word) : Except Fault Memory :=
  if wordAligned addr then
    if inRange addr then .ok (Memory.store m (wordIndex addr) v) else .error (.addressOutOfRange addr)
  else .ok m

/-! ### Storage of the Register File -/

/-- Every register 0: the storage at construction and after a reset cycle (R50, R186). -/
def rfCleared : Vector Word Config.nregs :=
  Vector.replicate Config.nregs 0x00000000#32

/-- A write: index 0 is refused, any other index takes the value (R185, R190). -/
def rfWrite (rf : Vector Word Config.nregs) (a : RegIdx) (v : Word) : Vector Word Config.nregs :=
  if a = 0#5 then rf else rf.set a.toNat v a.isLt

/-! ### Staging pending values (spec/40_update_engine.md R121: an update writes pending values only) -/

/-- Staging the ALU's Outputs: `result`, and `zero` from that same result (R128, R146). -/
def driveAlu (result : Word) (s : State) : State :=
  { s with pending := { s.pending with alu := { s.pending.alu with result := result, zero := zeroFlag result } } }

/-- Staging the Sign-Extension unit's Local and Output: `gathered_imm` and its sign extension (R164, R165). -/
def driveImmediate (g : ImmField) (s : State) : State :=
  { s with pending := { s.pending with
      se := { s.pending.se with gatheredImm := g, immediate := signExtendImm g } } }

/-- Staging the Controller's first stage: `reg_write`, `imm_source`, `mem_write`, `control_op` (R222). -/
def driveFirstStage (regWrite : Bit) (immSource : ImmCode) (memWrite : Bit) (controlOp : CtrlCode) (s : State) :
    State :=
  { s with pending := { s.pending with
      ctrl := { s.pending.ctrl with
        regWrite := regWrite, immSource := immSource, memWrite := memWrite, controlOp := controlOp } } }

/-- Staging the Controller's second stage: `alu_control` (R225). -/
def driveAluControl (c : AluCode) (s : State) : State :=
  { s with pending := { s.pending with ctrl := { s.pending.ctrl with aluControl := c } } }

/-- Staging the Register File's two read ports (R182). -/
def driveReadPorts (d1 d2 : Word) (s : State) : State :=
  { s with pending := { s.pending with rf := { s.pending.rf with readData1 := d1, readData2 := d2 } } }

/-- Staging the Register File's storage. -/
def stageRf (rf : Vector Word Config.nregs) (s : State) : State :=
  { s with pending := { s.pending with rf := { s.pending.rf with storage := rf } } }

/-- Staging the Data Memory's Output and storage. -/
def stageDm (d : Word) (m : Memory) (s : State) : State :=
  { s with pending := { s.pending with dm := { s.pending.dm with readData := d, storage := m } } }

/-! ### Inputs and Outputs -/

/-- Width of an Input (spec/00_scope.md R7, spec/10_state.md R24 to R28, spec/46_composition.md R243). -/
def inputWidth : InputId → Nat
  | .aluControl => 3
  | .src1 => 32
  | .src2 => 32
  | .raw => 25
  | .immSrc => 2
  | .rfRstN => 1
  | .address1 => 5
  | .address2 => 5
  | .address3 => 5
  | .rfWriteData => 32
  | .rfWriteEnable => 1
  | .dmRstN => 1
  | .address => 32
  | .dmWriteData => 32
  | .dmWriteEnable => 1
  | .op => 7
  | .func3 => 3
  | .func7 => 7
  | .aluZero => 1
  | .instr => 32
  | .rstN => 1

/-- Width of an Output (R24 to R28). -/
def outputWidth : OutputId → Nat
  | .result => 32
  | .zero => 1
  | .immediate => 32
  | .readData1 => 32
  | .readData2 => 32
  | .readData => 32
  | .ctrlAluControl => 3
  | .immSource => 2
  | .memWrite => 1
  | .regWrite => 1

/-- The value of an Output, as a number (R21: the environment reads Outputs). -/
def readOutput : OutputId → Signals → Nat
  | .result, g => g.alu.result.toNat
  | .zero, g => g.alu.zero.toNat
  | .immediate, g => g.se.immediate.toNat
  | .readData1, g => g.rf.readData1.toNat
  | .readData2, g => g.rf.readData2.toNat
  | .readData, g => g.dm.readData.toNat
  | .ctrlAluControl, g => g.ctrl.aluControl.toNat
  | .immSource, g => g.ctrl.immSource.toNat
  | .memWrite, g => g.ctrl.memWrite.toNat
  | .regWrite, g => g.ctrl.regWrite.toNat

/-- Cutting an instruction word into the Inputs it drives in the reference datapath (R244, R245). -/
def setInstr (w : Word) (g : Signals) : Signals :=
  { g with
    ctrl := { g.ctrl with op := (cutWord w).op, func3 := (cutWord w).func3, func7 := (cutWord w).func7 }
    se := { g.se with raw := (cutWord w).raw }
    rf := { g.rf with address1 := (cutWord w).rs1, address2 := (cutWord w).rs2, address3 := (cutWord w).rd } }

/-- Giving an Input the value `v`, which fits its width (`offer` sees to that). DESIGN CHOICE (log entry 22): under any
wiring, the reference datapath's too, a row may name a block Input directly beside or instead of `instr` and `rstN`, and of two
values that reach one Input the later in the row stands. -/
def setInput (i : InputId) (v : Nat) (g : Signals) : Signals :=
  match i with
  | .aluControl => { g with alu := { g.alu with aluControl := BitVec.ofNat 3 v } }
  | .src1 => { g with alu := { g.alu with src1 := BitVec.ofNat 32 v } }
  | .src2 => { g with alu := { g.alu with src2 := BitVec.ofNat 32 v } }
  | .raw => { g with se := { g.se with raw := BitVec.ofNat 25 v } }
  | .immSrc => { g with se := { g.se with immSrc := BitVec.ofNat 2 v } }
  | .rfRstN => { g with rf := { g.rf with rstN := BitVec.ofNat 1 v } }
  | .address1 => { g with rf := { g.rf with address1 := BitVec.ofNat 5 v } }
  | .address2 => { g with rf := { g.rf with address2 := BitVec.ofNat 5 v } }
  | .address3 => { g with rf := { g.rf with address3 := BitVec.ofNat 5 v } }
  | .rfWriteData => { g with rf := { g.rf with writeData := BitVec.ofNat 32 v } }
  | .rfWriteEnable => { g with rf := { g.rf with writeEnable := BitVec.ofNat 1 v } }
  | .dmRstN => { g with dm := { g.dm with rstN := BitVec.ofNat 1 v } }
  | .address => { g with dm := { g.dm with address := BitVec.ofNat 32 v } }
  | .dmWriteData => { g with dm := { g.dm with writeData := BitVec.ofNat 32 v } }
  | .dmWriteEnable => { g with dm := { g.dm with writeEnable := BitVec.ofNat 1 v } }
  | .op => { g with ctrl := { g.ctrl with op := BitVec.ofNat 7 v } }
  | .func3 => { g with ctrl := { g.ctrl with func3 := BitVec.ofNat 3 v } }
  | .func7 => { g with ctrl := { g.ctrl with func7 := BitVec.ofNat 7 v } }
  | .aluZero => { g with ctrl := { g.ctrl with aluZero := BitVec.ofNat 1 v } }
  | .instr => setInstr (BitVec.ofNat 32 v) g
  | .rstN => { g with rf := { g.rf with rstN := BitVec.ofNat 1 v }, dm := { g.dm with rstN := BitVec.ofNat 1 v } }

/-- An Input's value is visible at once and is kept by the commit, so both of its values are written (log entry 6). -/
def assignInput (i : InputId) (v : Nat) (s : State) : State :=
  { s with current := setInput i v s.current, pending := setInput i v s.pending }

/-- The environment offers one value: a value of `2^W` or more is `WidthOverflow` and is never truncated (R130). -/
def offer (i : InputId) (v : Nat) (s : State) : Host.Outcome State Fault Refusal :=
  if v < 2 ^ inputWidth i then .next (assignInput i v s) else .fault (.widthOverflow i v)

/-- The environment offers one row of the stimulus table, value by value (R110). -/
def offerRow : StimulusRow → State → Host.Outcome State Fault Refusal
  | [], s => .next s
  | (i, v) :: r, s => andThen (offer i v s) (offerRow r)

/-- The connections of the reference datapath are made (R245). `alu_zero` takes no part: a model may leave it out
(R250). -/
def isReference (w : Wiring) : Bool :=
  decide ({ w with aluZero := .direct } = Wiring.reference)

/-- Before a cycle the environment offers its next row; an Input it does not offer keeps its value (R299, log entry 4). With
no row left the run of the reference datapath has ended (R252, log entry 23); stand-alone blocks go on with the Inputs they
have, each cycle as R299 says of the first. -/
def takeStimulus (s : State) : Host.Outcome State Fault Refusal :=
  match s.stimulus with
  | [] => if isReference s.wiring then .refused .endOfRun else .next s
  | row :: rest => offerRow row { s with stimulus := rest }

/-! ### Connections -/

/-- The producer Output of a connection (R240, R245). -/
def source : Connection → OutputId
  | .aluControl => .ctrlAluControl
  | .immSrc => .immSource
  | .memWrite => .memWrite
  | .regWrite => .regWrite
  | .aluZero => .zero
  | .src1 => .readData1
  | .src2 => .immediate
  | .address => .result
  | .dmWriteData => .readData2
  | .rfWriteData => .readData

/-- The consumer Input of a connection (R240, R245). -/
def target : Connection → InputId
  | .aluControl => .aluControl
  | .immSrc => .immSrc
  | .memWrite => .dmWriteEnable
  | .regWrite => .rfWriteEnable
  | .aluZero => .aluZero
  | .src1 => .src1
  | .src2 => .src2
  | .address => .address
  | .dmWriteData => .dmWriteData
  | .rfWriteData => .rfWriteData

/-- How a connection is made. -/
def linkOf (w : Wiring) : Connection → Link
  | .aluControl => w.aluControl
  | .immSrc => w.immSrc
  | .memWrite => w.memWrite
  | .regWrite => w.regWrite
  | .aluZero => w.aluZero
  | .src1 => w.src1
  | .src2 => w.src2
  | .address => w.address
  | .dmWriteData => w.dmWriteData
  | .rfWriteData => w.rfWriteData

/-- Every connection. -/
def allConnections : List Connection :=
  [.aluControl, .immSrc, .memWrite, .regWrite, .aluZero, .src1, .src2, .address, .dmWriteData, .rfWriteData]

/-- `WIRE_LATENCY` = 1: the producer's committed value is copied into the consumer's Input before the evaluation
(R125, R132), once there is one: before the producer's first evaluation nothing is copied, and the Input keeps the value it
has, at construction 0 (R23, R48; log entry 10). -/
def copyRegistered (c : Connection) (s : State) : State :=
  match linkOf s.wiring c with
  | .registered => if s.hasEvaluated then assignInput (target c) (readOutput (source c) s.current) s else s
  | .direct => s
  | .environment => s

/-- `WIRE_LATENCY` = 0: the producer's value of this same cycle reaches the consumer's Input within the cycle (R132,
R245). -/
def copyDirect (c : Connection) (s : State) : State :=
  match linkOf s.wiring c with
  | .direct => assignInput (target c) (readOutput (source c) s.pending) s
  | .registered => s
  | .environment => s

/-- All registered connections. -/
def copyAllRegistered (s : State) : State :=
  allConnections.foldl (fun t c => copyRegistered c t) s

/-- Some direct connections, in order. -/
def copyDirects (cs : List Connection) (s : State) : State :=
  cs.foldl (fun t c => copyDirect c t) s

/-! ### The two-phase discipline -/

/-- The start of an evaluation: a Signal that no update writes is to hold its value, so every pending value starts equal
to the current one (R23, R188; log entry 6). -/
def restage (s : State) : State :=
  { s with pending := s.current }

/-- The commit: pending becomes current for every Signal at once; it is the clock edge (R122). From here on every block has
been evaluated (R48). -/
def commit (s : State) : State :=
  { s with current := s.pending, hasEvaluated := true }

end Sys2Proof.Machine
end

