-- ==== Sys2Proof/Machine/DataMemory.lean ====
section
/-! DEFINITION. Machine/DataMemory.lean: the Data Memory's update (spec/44_data_memory.md). The block has no selector code:
what it does is chosen by `rst_n`, `write_enable` and `address`. -/

namespace Sys2Proof.Machine

/-- The storage after the edge: reset, else write (a misaligned one changes nothing), else hold (R202, R205 to R210). -/
def dmNext (g : DmSignals) : Except Fault Memory :=
  if g.rstN = 0#1 then .ok Memory.cleared
  else if g.writeEnable = 1#1 then memWrite g.storage g.address g.writeData
  else .ok g.storage

/-- The Data Memory's update, `step_DM`: the read is evaluated in every cycle, so an out-of-range address fails the cycle
before anything else is looked at (R202, R207, R269). -/
def updateDataMemory (s : State) : Host.Outcome State Fault Refusal :=
  match memRead s.current.dm.storage s.current.dm.address with
  | .error f => .fault f
  | .ok d =>
    match dmNext s.current.dm with
    | .error f => .fault f
    | .ok m => .next (stageDm d m s)

end Sys2Proof.Machine
end

