-- ==== Sys2Proof/Machine/Alu.lean ====
section
/-! DEFINITION. Machine/Alu.lean: the meanings of the `alu_control` rows (spec/41_alu.md): the ALU's update under each
code. Operands `src1`, `src2` are current values; `result` and `zero` are staged (spec/40_update_engine.md R121). -/

namespace Sys2Proof.Machine

/-- The unassigned codes: `result = 0`, hence `zero = 1`, for every operand pair (R144). -/
def forceZero (s : State) : State :=
  driveAlu 0x00000000#32 s

/-- ALU_ADD: `result = (src1 + src2) mod 2^32`, `zero = (result == 0)`; the carry is lost (R143, R149). -/
def execAluAdd (s : State) : Host.Outcome State Fault Refusal :=
  .next (driveAlu (s.current.alu.src1 + s.current.alu.src2) s)

/-- ALU_ZERO_001 (R144; not a subtraction, R145). -/
def execAluZero001 (s : State) : Host.Outcome State Fault Refusal :=
  .next (forceZero s)

/-- ALU_ZERO_010 (R144). -/
def execAluZero010 (s : State) : Host.Outcome State Fault Refusal :=
  .next (forceZero s)

/-- ALU_ZERO_011 (R144). -/
def execAluZero011 (s : State) : Host.Outcome State Fault Refusal :=
  .next (forceZero s)

/-- ALU_ZERO_100 (R144). -/
def execAluZero100 (s : State) : Host.Outcome State Fault Refusal :=
  .next (forceZero s)

/-- ALU_ZERO_101 (R144). -/
def execAluZero101 (s : State) : Host.Outcome State Fault Refusal :=
  .next (forceZero s)

/-- ALU_ZERO_110 (R144). -/
def execAluZero110 (s : State) : Host.Outcome State Fault Refusal :=
  .next (forceZero s)

/-- ALU_ZERO_111: the code the Controller's force-zero arm emits (R144, R225). -/
def execAluZero111 (s : State) : Host.Outcome State Fault Refusal :=
  .next (forceZero s)

end Sys2Proof.Machine
end

