-- ==== Sys2Proof/Machine/Controller.lean ====
section
/-! DEFINITION. Machine/Controller.lean: the meanings of the `control_op` rows (the second stage) and of the `op` rows
(the whole Controller) (spec/45_controller.md). -/

namespace Sys2Proof.Machine

/-- CTRLOP_ADD: `alu_control = 0b000` (R225). -/
def execCtrlopAdd (s : State) : Host.Outcome State Fault Refusal :=
  .next (driveAluControl 0b000#3 s)

/-- CTRLOP_FORCEZERO_01: `alu_control = 0b111` (R225; no `op` reaches it). -/
def execCtrlopForcezero01 (s : State) : Host.Outcome State Fault Refusal :=
  .next (driveAluControl 0b111#3 s)

/-- CTRLOP_FORCEZERO_10: `alu_control = 0b111` (R225; no `op` reaches it). -/
def execCtrlopForcezero10 (s : State) : Host.Outcome State Fault Refusal :=
  .next (driveAluControl 0b111#3 s)

/-- CTRLOP_FORCEZERO_11: `alu_control = 0b111` (R225; no `op` reaches it). -/
def execCtrlopForcezero11 (s : State) : Host.Outcome State Fault Refusal :=
  .next (driveAluControl 0b111#3 s)

/-- The second stage: the row of the `control_op` that the first stage has just computed (R225). It is handed the computed
value and reads no Signal for it (R121 (c), R128). -/
def secondStage (controlOp : CtrlCode) (s : State) : Host.Outcome State Fault Refusal :=
  if controlOp = 0b00#2 then execCtrlopAdd s
  else if controlOp = 0b01#2 then execCtrlopForcezero01 s
  else if controlOp = 0b10#2 then execCtrlopForcezero10 s
  else execCtrlopForcezero11 s

/-- Both stages of one evaluation: what the first stage has computed is staged, and its `control_op` goes on to the second
(R222, R225). -/
def bothStages (regWrite : Bit) (immSource : ImmCode) (memWrite : Bit) (controlOp : CtrlCode) (s : State) :
    Host.Outcome State Fault Refusal :=
  secondStage controlOp (driveFirstStage regWrite immSource memWrite controlOp s)

/-- LOAD: `reg_write = 1`, `imm_source = 0b00`, `mem_write = 0`, `control_op = 0b00`, and `alu_control` through the second
stage (R223). -/
def execLoad (s : State) : Host.Outcome State Fault Refusal :=
  bothStages 1#1 0b00#2 0#1 0b00#2 s

/-- OTHER: the default row, `reg_write = 0` and the rest as LOAD, for each of the 127 other codes; no code is an illegal
instruction (R224, R104). -/
def execOther (_op : Opcode) (s : State) : Host.Outcome State Fault Refusal :=
  bothStages 0#1 0b00#2 0#1 0b00#2 s

end Sys2Proof.Machine
end

