-- ==== Sys2Proof/Machine/Immediate.lean ====
section
/-! DEFINITION. Machine/Immediate.lean: the meanings of the `imm_src` rows (spec/42_sign_extension.md): the
Sign-Extension unit's update under each code. -/

namespace Sys2Proof.Machine

/-- The unimplemented layouts: `gathered_imm = 0`, hence `immediate = 0`, whatever `raw` holds (R163). -/
def zeroImmediate (s : State) : State :=
  driveImmediate 0b000000000000#12 s

/-- IMM_UPPER12: `gathered_imm = raw[24:13]`, `immediate = sext_32(gathered_imm)` (R162, R164). -/
def execImmUpper12 (s : State) : Host.Outcome State Fault Refusal :=
  .next (driveImmediate (upper12 s.current.se.raw) s)

/-- IMM_ZERO_01 (R163). -/
def execImmZero01 (s : State) : Host.Outcome State Fault Refusal :=
  .next (zeroImmediate s)

/-- IMM_ZERO_10 (R163). -/
def execImmZero10 (s : State) : Host.Outcome State Fault Refusal :=
  .next (zeroImmediate s)

/-- IMM_ZERO_11 (R163). -/
def execImmZero11 (s : State) : Host.Outcome State Fault Refusal :=
  .next (zeroImmediate s)

end Sys2Proof.Machine
end

