-- ==== Sys2Proof/Machine/Dispatch.lean ====
section
/-! DEFINITION. Machine/Dispatch.lean: one arm per row of spec/opcode_table.json. -/

namespace Sys2Proof.Machine

/-- What a row does: the update of the block that reads its code (spec/40_update_engine.md R121, R127). -/
def exec (i : Instr) (s : State) : Host.Outcome State Fault Refusal :=
  match i with
  | .load => Sys2Proof.Machine.execLoad s
  | .other op => Sys2Proof.Machine.execOther op s
  | .aluAdd => Sys2Proof.Machine.execAluAdd s
  | .aluZero001 => Sys2Proof.Machine.execAluZero001 s
  | .aluZero010 => Sys2Proof.Machine.execAluZero010 s
  | .aluZero011 => Sys2Proof.Machine.execAluZero011 s
  | .aluZero100 => Sys2Proof.Machine.execAluZero100 s
  | .aluZero101 => Sys2Proof.Machine.execAluZero101 s
  | .aluZero110 => Sys2Proof.Machine.execAluZero110 s
  | .aluZero111 => Sys2Proof.Machine.execAluZero111 s
  | .immUpper12 => Sys2Proof.Machine.execImmUpper12 s
  | .immZero01 => Sys2Proof.Machine.execImmZero01 s
  | .immZero10 => Sys2Proof.Machine.execImmZero10 s
  | .immZero11 => Sys2Proof.Machine.execImmZero11 s
  | .ctrlopAdd => Sys2Proof.Machine.execCtrlopAdd s
  | .ctrlopForcezero01 => Sys2Proof.Machine.execCtrlopForcezero01 s
  | .ctrlopForcezero10 => Sys2Proof.Machine.execCtrlopForcezero10 s
  | .ctrlopForcezero11 => Sys2Proof.Machine.execCtrlopForcezero11 s

end Sys2Proof.Machine
end

