-- ==== Sys2Proof/Machine/RegisterFile.lean ====
section
/-! DEFINITION. Machine/RegisterFile.lean: the Register File's update (spec/43_register_file.md). The block has no
selector code: what it does is chosen by `rst_n`, `write_enable` and `address3`. -/

namespace Sys2Proof.Machine

/-- The two read ports, from the current (pre-edge) storage, in every cycle (R182, R183). -/
def rfReadPorts (s : State) : State :=
  driveReadPorts (rfRead s.current.rf.storage s.current.rf.address1) (rfRead s.current.rf.storage s.current.rf.address2) s

/-- `next_RF`: reset, else write, else hold, tested in that order (R182, R185 to R188). -/
def rfNext (g : RfSignals) : Vector Word Config.nregs :=
  if g.rstN = 0#1 then rfCleared
  else if g.writeEnable = 1#1 then rfWrite g.storage g.address3 g.writeData
  else g.storage

/-- The clock-edge part of the Register File's update. -/
def rfStage (s : State) : State :=
  stageRf (rfNext s.current.rf) s

/-- The Register File's update: it cannot fail (R181). -/
def updateRegisterFile (s : State) : Host.Outcome State Fault Refusal :=
  .next (rfStage (rfReadPorts s))

end Sys2Proof.Machine
end

