-- ==== Sys2Proof/Machine/Cycle.lean ====
section
/-! DEFINITION. Machine/Cycle.lean: one cycle of the hardware: the evaluation of the five blocks, each under the code on its
selector Input, with the connections that are made (spec/40_update_engine.md R120 to R132, spec/46_composition.md R246), and
how a bare code or word is presented for the next cycle. -/

namespace Sys2Proof.Machine

/-- The row of the code on the Controller's `op`. -/
def opRow (s : State) : Instr := decodeOp s.current.ctrl.op

/-- The row of the code on the Sign-Extension unit's `imm_src`. -/
def immRow (s : State) : Instr := decodeImmSrc s.current.se.immSrc

/-- The row of the code on the ALU's `alu_control`. -/
def aluRow (s : State) : Instr := decodeAluControl s.current.alu.aluControl

/-- One block's update: it reads current values and stages pending ones (R121). The combinational blocks run the row of
their selector's code. -/
def updateBlock (b : Block) (s : State) : Host.Outcome State Fault Refusal :=
  match b with
  | .controller => exec (opRow s) s
  | .signExtension => exec (immRow s) s
  | .alu => exec (aluRow s) s
  | .registerFile => updateRegisterFile s
  | .dataMemory => updateDataMemory s

/-- The updates of some blocks, one after the other. -/
def updateBlocks : List Block → State → Host.Outcome State Fault Refusal
  | [], s => .next s
  | b :: bs, s => andThen (updateBlock b s) (updateBlocks bs)

/-- The five blocks, in the dependency order of R246. -/
def allBlocks : List Block :=
  [.controller, .signExtension, .alu, .dataMemory, .registerFile]

/-- The evaluation of one cycle. Registered connections are copied first (R125); then each block is evaluated once, in the
dependency order of R246, a direct connection being copied when its producer has been evaluated and before its consumer
is. The Register File's read ports are evaluated with its pre-edge storage before the ALU that may use them, and its
clock-edge part last; together they are its update (R182). Without direct connections the order does not matter (R124). -/
def evaluate (s : State) : Host.Outcome State Fault Refusal :=
  andThen (updateBlock .controller (copyAllRegistered s)) fun a =>
  andThen (updateBlock .signExtension (copyDirects [.immSrc] a)) fun b =>
  andThen (updateBlock .alu (copyDirects [.aluControl, .src1, .src2] (rfReadPorts b))) fun c =>
  andThen (updateBlock .dataMemory (copyDirects [.aluZero, .memWrite, .address, .dmWriteData] c)) fun d =>
  .next (rfStage (copyDirects [.regWrite, .rfWriteData] d))

/-- A cycle whose Inputs are assigned: every pending value starts from the current one, the blocks are evaluated, and the
one commit is the clock edge (R122). A failure commits nothing (R266). -/
def cycle (s : State) : Host.Outcome State Fault Refusal :=
  andThen (evaluate (restage s)) fun t => .next (commit t)

/-- Leaving to the environment the Input of a connection. -/
def release (c : Connection) (w : Wiring) : Wiring :=
  match c with
  | .aluControl => { w with aluControl := .environment }
  | .immSrc => { w with immSrc := .environment }
  | .memWrite => { w with memWrite := .environment }
  | .regWrite => { w with regWrite := .environment }
  | .aluZero => { w with aluZero := .environment }
  | .src1 => { w with src1 := .environment }
  | .src2 => { w with src2 := .environment }
  | .address => { w with address := .environment }
  | .dmWriteData => { w with dmWriteData := .environment }
  | .rfWriteData => { w with rfWriteData := .environment }

/-- The environment's next row, put before the rows it already has. -/
def presentRow (row : StimulusRow) (s : State) : State :=
  { s with stimulus := row :: s.stimulus }

/-- Presenting a bare number of the opcode table for the next cycle, on the Input `tablePresented` reads it for; if a
connection drives that Input it is left to the environment (log entries 2 and 3). A number read as a 32-bit word is
presented whole, as the reference datapath's `instr`. -/
def presentTableWord (s : State) (nbits w : Nat) : State :=
  match tablePresented nbits w with
  | none => presentRow [(.instr, w)] s
  | some p =>
    match p.port with
    | .op7 => presentRow [(if nbits = 7 then .op else .instr, w)] s
    | .aluControl3 => presentRow [(.aluControl, w)] { s with wiring := release .aluControl s.wiring }
    | .immSrc2 => presentRow [(.immSrc, w)] { s with wiring := release .immSrc s.wiring }
    | .controlOp2 => s

end Sys2Proof.Machine
end

