-- ==== Sys2Proof/Machine/Step.lean ====
section
/-! DEFINITION. Machine/Step.lean: one step of the machine is one cycle (spec/00_scope.md R17), and how the host presents an
instruction for the next one. -/

namespace Sys2Proof.Machine

/-- One cycle: the environment's offer, then the evaluation and the commit. `WidthOverflow` comes before any evaluation
(spec/60_exceptions.md R269). -/
def step (s : State) : Host.Outcome State Fault Refusal :=
  andThen (takeStimulus s) cycle

/-- `s` with a bare number of the opcode table presented for the next cycle. -/
def State.withFetchWord (s : State) (nbits w : Nat) : State :=
  presentTableWord s nbits w

end Sys2Proof.Machine
end

