-- ==== Sys2Proof/Machine/BlockFunctions.lean ====
section
/-! DEFINITION. Machine/BlockFunctions.lean: the spec's own step functions, transcribed: each block as `out` and `next`
(spec/40_update_engine.md R127) and the step of the reference datapath (spec/46_composition.md R246). The machine does not
call them: it runs the rows; that the machine meets them is stated in the obligations. -/

namespace Sys2Proof.Machine

/-- `out_ALU` (R142): `result` and `zero`. -/
def outALU (aluControl : AluCode) (src1 src2 : Word) : Word × Bit :=
  let r := if aluControl = 0b000#3 then src1 + src2 else 0x00000000#32
  (r, if r = 0x00000000#32 then 1#1 else 0#1)

/-- `gathered_imm` of `out_SE` (R165). -/
def gatherSE (raw : Raw) (immSrc : ImmCode) : ImmField :=
  if immSrc = 0b00#2 then raw.extractLsb' 13 12 else 0b000000000000#12

/-- `out_SE` (R165). -/
def outSE (raw : Raw) (immSrc : ImmCode) : Word :=
  let g := gatherSE raw immSrc
  if g.getLsbD 11 then g.setWidth 32 ||| 0xFFFFF000#32 else g.setWidth 32

/-- The outputs of the Controller, with its Local `control_op`. -/
structure CtrlOut where
  aluControl : AluCode
  immSource : ImmCode
  memWrite : Bit
  regWrite : Bit
  controlOp : CtrlCode
deriving DecidableEq, Repr

/-- The second stage of `out_CTRL` (R225, R226). -/
def secondStageCode (controlOp : CtrlCode) : AluCode :=
  if controlOp = 0b00#2 then 0b000#3 else 0b111#3

/-- `out_CTRL` (R226): `func3`, `func7` and `alu_zero` are accepted and take part in nothing (R221). -/
def outCTRL (op : Opcode) (_func3 : BitVec 3) (_func7 : BitVec 7) (_aluZero : Bit) : CtrlOut :=
  { aluControl := secondStageCode 0b00#2, immSource := 0b00#2, memWrite := 0#1,
    regWrite := if op = 0b0000011#7 then 1#1 else 0#1, controlOp := 0b00#2 }

/-- `next_RF` (R182), from the storage and the Inputs it reads. -/
def nextRF (rf : Vector Word Config.nregs) (rstN : Bit) (address3 : RegIdx) (writeData : Word) (writeEnable : Bit) :
    Vector Word Config.nregs :=
  if rstN = 0#1 then Vector.replicate Config.nregs 0x00000000#32
  else if writeEnable = 1#1 ∧ address3 ≠ 0#5 then rf.set address3.toNat writeData address3.isLt
  else rf

/-- `step_DM` (R202): `read_data` and the storage after the edge, or the failure. -/
def stepDM (dm : Memory) (rstN : Bit) (address writeData : Word) (writeEnable : Bit) : Except Fault (Word × Memory) :=
  if Config.memWords ≤ (address >>> 2).toNat then .error (.addressOutOfRange address)
  else
    .ok (Memory.lookup dm (address >>> 2).toNat,
      if rstN = 0#1 then []
      else if writeEnable = 1#1 ∧ address.extractLsb' 0 2 = 0b00#2 then Memory.store dm (address >>> 2).toNat writeData
      else dm)

/-- `step_DP` (R246): the reference datapath's step on its whole state, `rf` and `dm`. -/
def stepDP (rf : Vector Word Config.nregs) (dm : Memory) (instr : Word) (rstN : Bit) :
    Except Fault (Vector Word Config.nregs × Memory) :=
  let f := cutWord instr
  let c := outCTRL f.op f.func3 f.func7 0#1
  let immediate := outSE f.raw c.immSource
  let a := rfRead rf f.rs1
  let b := rfRead rf f.rs2
  let alu := outALU c.aluControl a immediate
  match stepDM dm rstN alu.1 b c.memWrite with
  | .error e => .error e
  | .ok (readData, dm') => .ok (nextRF rf rstN f.rd readData c.regWrite, dm')

/-! ### Reading a run at the ports -/

/-- The block whose Output it is (R24 to R28). -/
def outputBlock : OutputId → Block
  | .result => .alu
  | .zero => .alu
  | .immediate => .signExtension
  | .readData1 => .registerFile
  | .readData2 => .registerFile
  | .readData => .dataMemory
  | .ctrlAluControl => .controller
  | .immSource => .controller
  | .memWrite => .controller
  | .regWrite => .controller

/-- The value of the Input a connection drives, as a number. -/
def consumerValue : Connection → Signals → Nat
  | .aluControl, g => g.alu.aluControl.toNat
  | .immSrc, g => g.se.immSrc.toNat
  | .memWrite, g => g.dm.writeEnable.toNat
  | .regWrite, g => g.rf.writeEnable.toNat
  | .aluZero, g => g.ctrl.aluZero.toNat
  | .src1, g => g.alu.src1.toNat
  | .src2, g => g.alu.src2.toNat
  | .address, g => g.dm.address.toNat
  | .dmWriteData, g => g.dm.writeData.toNat
  | .rfWriteData, g => g.rf.writeData.toNat

/-- What one Data Memory cycle with the Inputs `g` makes of the word with index `w` that held `v`: a reset cycle clears it,
a successful write to it replaces it, every other cycle keeps it (spec/20_memory.md R73, R74). -/
def dmEffect (w : Nat) (v : Word) (g : DmSignals) : Word :=
  if g.rstN = 0#1 then 0x00000000#32
  else if g.writeEnable = 1#1 ∧ g.address.toNat % 4 = 0 ∧ g.address.toNat / 4 = w then g.writeData
  else v

end Sys2Proof.Machine
end

