-- ==== Sys2Proof/Safety.lean ====
section
/-! DEFINITION. Safety.lean: what claims are stated in: a cycle that does not fail, the environment's obligations
(spec/70_reset_and_hazards.md R298), and the invariant of the hardware between two cycles. -/

namespace Sys2Proof.Machine

/-- A cycle that answers a next state (spec/60_exceptions.md R266: a failed one ends the run). -/
def Completes (s : State) : Prop :=
  ∃ t, step s = .next t

/-- Every value of a stimulus row fits its Input (R298 (c), R130). -/
def rowFits (row : StimulusRow) : Bool :=
  row.all fun p => decide (p.2 < 2 ^ inputWidth p.1)

/-- No connection of this wiring has the given latency. -/
def noLink (l : Link) (w : Wiring) : Bool :=
  allConnections.all fun c => linkOf w c != l

/-- The states of a run after `s`, one per cycle, none of which failed (R17, R266). In the reference datapath a run has no
more cycles than the environment has rows (R252), because `step` answers no state after the last. -/
def Run : State → List State → Prop
  | _, [] => True
  | s, t :: ts => step s = .next t ∧ Run t ts

/-- Two Signal sets with the same value on every Input of every block (R24 to R28). -/
structure SameInputs (g h : Signals) : Prop where
  aluControl : g.alu.aluControl = h.alu.aluControl
  src1 : g.alu.src1 = h.alu.src1
  src2 : g.alu.src2 = h.alu.src2
  raw : g.se.raw = h.se.raw
  immSrc : g.se.immSrc = h.se.immSrc
  rfRstN : g.rf.rstN = h.rf.rstN
  address1 : g.rf.address1 = h.rf.address1
  address2 : g.rf.address2 = h.rf.address2
  address3 : g.rf.address3 = h.rf.address3
  rfWriteData : g.rf.writeData = h.rf.writeData
  rfWriteEnable : g.rf.writeEnable = h.rf.writeEnable
  dmRstN : g.dm.rstN = h.dm.rstN
  address : g.dm.address = h.dm.address
  dmWriteData : g.dm.writeData = h.dm.writeData
  dmWriteEnable : g.dm.writeEnable = h.dm.writeEnable
  op : g.ctrl.op = h.ctrl.op
  func3 : g.ctrl.func3 = h.ctrl.func3
  func7 : g.ctrl.func7 = h.ctrl.func7
  aluZero : g.ctrl.aluZero = h.ctrl.aluZero

/-- What holds between two cycles, in every state a run reaches: the committed and the pending value of every Signal agree
(R122); `rf[0]` is 0 (R46); the memory is in its canonical form; `immediate` is the sign extension of `gathered_imm`
(R164); the Controller asks for an ALU add, the upper-12-bit layout and no memory write (R227). -/
structure Inv (s : State) : Prop where
  committed : s.pending = s.current
  zeroRegister : s.current.rf.storage[0] = 0
  memory : Memory.wf s.current.dm.storage = true
  immediate : s.current.se.immediate = s.current.se.gatheredImm.signExtend 32
  aluControl : s.current.ctrl.aluControl = 0b000#3
  immSource : s.current.ctrl.immSource = 0b00#2
  memWrite : s.current.ctrl.memWrite = 0#1
  controlOp : s.current.ctrl.controlOp = 0b00#2

end Sys2Proof.Machine
end

