-- ==== Sys2Proof/Certificates/Slice0/Obligations.lean ====
section
/-! DEFINITION. Certificates/Slice0/Obligations.lean: the statements for the provers. "A cycle's Inputs" are those of the
state `u` that `takeStimulus s` gives: what the environment has offered for the cycle (spec/60_exceptions.md R282). -/

open Sys2Proof Sys2Proof.Machine

/-! ### The ALU (spec/41_alu.md) -/

/-- R143: under `alu_control = 0b000` the ALU stages `(src1 + src2) mod 2^32`, and `zero` from that result; nothing else
changes. -/
def Obligations.AluAddRowStagesTheSum : Prop :=
  decodeAluControl 0b000#3 = .aluAdd ∧
  ∀ s : State,
    exec .aluAdd s = .next { s with
      pending.alu.result := s.current.alu.src1 + s.current.alu.src2
      pending.alu.zero := if s.current.alu.src1 + s.current.alu.src2 = 0x00000000#32 then 1#1 else 0#1 } ∧
    (s.current.alu.src1 + s.current.alu.src2).toNat =
      (s.current.alu.src1.toNat + s.current.alu.src2.toNat) % 2 ^ 32

/-- R144: each of the seven other codes has a row that stages `result = 0` and `zero = 1` whatever the operands are; nothing
else changes. -/
def Obligations.UnassignedAluRowsForceZero : Prop :=
  (∀ c : AluCode, c ≠ 0b000#3 → decodeAluControl c ∈
    [Instr.aluZero001, .aluZero010, .aluZero011, .aluZero100, .aluZero101, .aluZero110, .aluZero111]) ∧
  ∀ (s : State) (i : Instr),
    i ∈ [Instr.aluZero001, .aluZero010, .aluZero011, .aluZero100, .aluZero101, .aluZero110, .aluZero111] →
    exec i s = .next { s with pending.alu.result := 0x00000000#32, pending.alu.zero := 1#1 }

/-- R142, R146: the ALU's update under ANY code stages `out_ALU` of the same cycle's Inputs, and `zero` is 1 exactly when
that result is 0; for ADD, exactly when `src2` is the two's-complement negation of `src1`. -/
def Obligations.AluUpdateIsOutALU : Prop :=
  ∀ s : State,
    updateBlock .alu s = .next { s with
      pending.alu.result := (outALU s.current.alu.aluControl s.current.alu.src1 s.current.alu.src2).1
      pending.alu.zero := (outALU s.current.alu.aluControl s.current.alu.src1 s.current.alu.src2).2 } ∧
    ((outALU s.current.alu.aluControl s.current.alu.src1 s.current.alu.src2).2 = 1#1 ↔
      (outALU s.current.alu.aluControl s.current.alu.src1 s.current.alu.src2).1 = 0x00000000#32) ∧
    (s.current.alu.aluControl = 0b000#3 →
      ((outALU s.current.alu.aluControl s.current.alu.src1 s.current.alu.src2).2 = 1#1 ↔
        s.current.alu.src2 = -s.current.alu.src1))

/-- R147: the staged sum is the sum modulo 2^32 of the unsigned and of the signed values; no carry and no overflow is
reported anywhere: nothing but `result` and `zero` changes, and `zero` says only whether the 32 bits are 0. -/
def Obligations.AluSumIsModularForBothSignings : Prop :=
  ∀ s : State, ∃ t, exec .aluAdd s = .next t ∧
    t.pending.alu.result.toNat = (s.current.alu.src1.toNat + s.current.alu.src2.toNat) % 2 ^ 32 ∧
    (2 ^ 32 : Int) ∣ t.pending.alu.result.toInt - (s.current.alu.src1.toInt + s.current.alu.src2.toInt) ∧
    t = { s with pending.alu.result := t.pending.alu.result, pending.alu.zero := t.pending.alu.zero } ∧
    (t.pending.alu.zero = 1#1 ↔ t.pending.alu.result = 0x00000000#32)

/-! ### The Sign-Extension unit (spec/42_sign_extension.md) -/

/-- R162, R164: under `imm_src = 0b00` the unit stages `gathered_imm = raw[24:13]` and its sign extension to 32 bits;
nothing else changes. -/
def Obligations.ImmUpper12RowSignExtends : Prop :=
  decodeImmSrc 0b00#2 = .immUpper12 ∧
  ∀ s : State,
    exec .immUpper12 s = .next { s with
      pending.se.gatheredImm := s.current.se.raw.extractLsb' 13 12
      pending.se.immediate := (s.current.se.raw.extractLsb' 13 12).signExtend 32 }

/-- R163: under each other `imm_src` the unit stages a zero field and a zero immediate, whatever `raw` is; nothing else
changes. -/
def Obligations.UnassignedImmRowsStageZero : Prop :=
  (∀ c : ImmCode, c ≠ 0b00#2 → decodeImmSrc c ∈ [Instr.immZero01, .immZero10, .immZero11]) ∧
  ∀ (s : State) (i : Instr), i ∈ [Instr.immZero01, .immZero10, .immZero11] →
    exec i s = .next { s with pending.se.gatheredImm := 0x000#12, pending.se.immediate := 0x00000000#32 }

/-- R165: the unit's update under ANY code stages `out_SE` of the same cycle's Inputs. -/
def Obligations.SignExtensionUpdateIsOutSE : Prop :=
  ∀ s : State,
    updateBlock .signExtension s = .next { s with
      pending.se.gatheredImm := gatherSE s.current.se.raw s.current.se.immSrc
      pending.se.immediate := outSE s.current.se.raw s.current.se.immSrc }

/-- R166 (which the spec derives from R162 and R164): with `imm_src = 0b00` the signed immediate is the signed field, in
-2048 .. 2047; bits 31..11 are all equal; and the immediates are exactly the words `0x0 .. 0x7FF` and `0xFFFFF800 ..
0xFFFFFFFF`. -/
def Obligations.ImmediateRange : Prop :=
  (∀ s : State, ∃ t, exec .immUpper12 s = .next t ∧
    t.pending.se.immediate.toInt = (s.current.se.raw.extractLsb' 13 12).toInt ∧
    -2048 ≤ t.pending.se.immediate.toInt ∧ t.pending.se.immediate.toInt ≤ 2047 ∧
    ∀ k, 11 ≤ k → k < 32 → t.pending.se.immediate.getLsbD k = t.pending.se.immediate.getLsbD 31) ∧
  ∀ v : Word, (v.toNat ≤ 0x7FF ∨ 0xFFFFF800 ≤ v.toNat) ↔ ∃ raw : Raw, outSE raw 0b00#2 = v

/-! ### The Controller (spec/45_controller.md) -/

/-- R223: LOAD stages `reg_write = 1`, `imm_source = 0b00`, `mem_write = 0`, `control_op = 0b00` and, through the second
stage, `alu_control = 0b000`; nothing else changes. -/
def Obligations.LoadRowStagesItsControls : Prop :=
  decodeOp 0b0000011#7 = .load ∧
  ∀ s : State,
    exec .load s = .next { s with
      pending.ctrl.regWrite := 1#1, pending.ctrl.immSource := 0b00#2, pending.ctrl.memWrite := 0#1
      pending.ctrl.controlOp := 0b00#2, pending.ctrl.aluControl := 0b000#3 }

/-- R224: every other `op` has the default row, which differs from LOAD's in `reg_write = 0` only; nothing else changes. -/
def Obligations.OtherRowStagesItsControls : Prop :=
  (∀ op : Opcode, op ≠ 0b0000011#7 → decodeOp op = .other op) ∧
  ∀ (s : State) (op : Opcode),
    exec (.other op) s = .next { s with
      pending.ctrl.regWrite := 0#1, pending.ctrl.immSource := 0b00#2, pending.ctrl.memWrite := 0#1
      pending.ctrl.controlOp := 0b00#2, pending.ctrl.aluControl := 0b000#3 }

/-- R225: the second stage alone: `control_op = 0b00` stages `alu_control = 0b000`, every other value `0b111`; nothing else
changes. -/
def Obligations.SecondStageRowsStageAluControl : Prop :=
  decodeControlOp 0b00#2 = .ctrlopAdd ∧
  (∀ c : CtrlCode, c ≠ 0b00#2 →
    decodeControlOp c ∈ [Instr.ctrlopForcezero01, .ctrlopForcezero10, .ctrlopForcezero11]) ∧
  ∀ s : State,
    exec .ctrlopAdd s = .next { s with pending.ctrl.aluControl := 0b000#3 } ∧
    ∀ i ∈ [Instr.ctrlopForcezero01, .ctrlopForcezero10, .ctrlopForcezero11],
      exec i s = .next { s with pending.ctrl.aluControl := 0b111#3 }

/-- R227, R228 (which the spec derives from R223 to R225): for every `op`, `func3`, `func7` and `alu_zero` the Controller
stages `alu_control = 0b000`, `imm_source = 0b00`, `mem_write = 0`, `control_op = 0b00`, and `reg_write = 1` exactly when
`op` is the load opcode. -/
def Obligations.ControllerMeetsItsTruthTable : Prop :=
  ∀ (s : State) (op : Opcode) (func3 : BitVec 3) (func7 : BitVec 7) (aluZero : Bit),
    ∃ t, updateBlock .controller { s with
        current.ctrl.op := op, current.ctrl.func3 := func3, current.ctrl.func7 := func7
        current.ctrl.aluZero := aluZero } = .next t ∧
      t.pending.ctrl.aluControl = 0b000#3 ∧ t.pending.ctrl.immSource = 0b00#2 ∧ t.pending.ctrl.memWrite = 0#1 ∧
      t.pending.ctrl.controlOp = 0b00#2 ∧ (t.pending.ctrl.regWrite = 1#1 ↔ op = 0b0000011#7)

/-! ### What no row and no update touches -/

/-- Every row of the opcode table answers a next state from every state, and stages nothing outside the block that reads
its code: all current values, the wiring, the stimulus, both storages, every other block's Signals and its own block's
Inputs are unchanged; a second-stage row changes `alu_control` alone (derived from R121, R125, R141, R161, R221). -/
def Obligations.EveryRowCompletesWithinItsBlock : Prop :=
  ∀ (i : Instr) (s : State), ∃ t, exec i s = .next t ∧
    t.current = s.current ∧ t.hasEvaluated = s.hasEvaluated ∧ t.wiring = s.wiring ∧ t.stimulus = s.stimulus ∧
    t.pending.rf = s.pending.rf ∧ t.pending.dm = s.pending.dm ∧ SameInputs t.pending s.pending ∧
    (i.port ≠ .aluControl3 → t.pending.alu = s.pending.alu) ∧
    (i.port ≠ .immSrc2 → t.pending.se = s.pending.se) ∧
    (i.port = .aluControl3 ∨ i.port = .immSrc2 → t.pending.ctrl = s.pending.ctrl) ∧
    (i.port = .controlOp2 → t.pending.ctrl = { s.pending.ctrl with aluControl := t.pending.ctrl.aluControl })

/-- R121: every block's update writes pending values only, and what it stages (its Outputs and its storage), or its
failure, does not depend on any pending value there was before. -/
def Obligations.UpdatesReadCurrentAndWritePending : Prop :=
  ∀ (b : Block) (s : State) (p : Signals),
    (∀ f, updateBlock b s = .fault f ↔ updateBlock b { s with pending := p } = .fault f) ∧
    ∀ t, updateBlock b s = .next t →
      t.current = s.current ∧
      ∃ t', updateBlock b { s with pending := p } = .next t' ∧
        (∀ o, outputBlock o = b → readOutput o t.pending = readOutput o t'.pending) ∧
        (b = .signExtension → t.pending.se.gatheredImm = t'.pending.se.gatheredImm) ∧
        (b = .controller → t.pending.ctrl.controlOp = t'.pending.ctrl.controlOp) ∧
        (b = .registerFile → t.pending.rf.storage = t'.pending.rf.storage) ∧
        (b = .dataMemory → t.pending.dm.storage = t'.pending.dm.storage)

/-! ### The Register File (spec/43_register_file.md) -/

/-- R182: the Register File's update cannot fail; it stages the two reads of the pre-edge storage and `next_RF`, and nothing
else changes. -/
def Obligations.RegisterFileUpdateMeetsItsStepFunctions : Prop :=
  ∀ s : State,
    updateBlock .registerFile s = .next { s with
      pending.rf.readData1 := rfRead s.current.rf.storage s.current.rf.address1
      pending.rf.readData2 := rfRead s.current.rf.storage s.current.rf.address2
      pending.rf.storage := nextRF s.current.rf.storage s.current.rf.rstN s.current.rf.address3 s.current.rf.writeData
        s.current.rf.writeEnable }

/-- R185, R189: a write to a non-zero index with `rst_n = 1` gives that register the value after the edge and leaves the
other 31 alone; the reads of the same cycle return the values before the write. -/
def Obligations.RegisterWriteIsSeenFromTheNextCycle : Prop :=
  ∀ s u : State, takeStimulus s = .next u → u.wiring = Wiring.standAlone → u.current.dm.address.toNat < 0x100 →
    u.current.rf.rstN = 1#1 → u.current.rf.writeEnable = 1#1 → u.current.rf.address3 ≠ 0#5 →
    ∃ t, step s = .next t ∧
      (∀ (k : Nat) (h : k < 32), t.current.rf.storage[k] =
        if k = u.current.rf.address3.toNat then u.current.rf.writeData else s.current.rf.storage[k]) ∧
      rfRead t.current.rf.storage u.current.rf.address3 = u.current.rf.writeData ∧
      t.current.rf.readData1 = rfRead s.current.rf.storage u.current.rf.address1 ∧
      t.current.rf.readData2 = rfRead s.current.rf.storage u.current.rf.address2

/-- R183, R190 (decision D9 of the spec): with `rst_n = 1` a write to index 0 changes no register; in every cycle each
read port returns the pre-edge word of its index, and 0 for index 0, whatever `rf[0]` holds. -/
def Obligations.RegisterZeroRefusesWritesAndReadsZero : Prop :=
  ∀ s u : State, takeStimulus s = .next u → u.wiring = Wiring.standAlone → u.current.dm.address.toNat < 0x100 →
    ∃ t, step s = .next t ∧
      (u.current.rf.rstN = 1#1 → u.current.rf.address3 = 0#5 → t.current.rf.storage = s.current.rf.storage) ∧
      t.current.rf.readData1 = (if u.current.rf.address1 = 0#5 then 0x00000000#32
        else s.current.rf.storage[u.current.rf.address1.toNat]'(u.current.rf.address1.isLt)) ∧
      t.current.rf.readData2 = (if u.current.rf.address2 = 0#5 then 0x00000000#32
        else s.current.rf.storage[u.current.rf.address2.toNat]'(u.current.rf.address2.isLt))

/-- R186, R187: with `rst_n = 0` all 32 words are 0 after the edge, whatever write is presented, and the read ports of
that cycle still return the pre-reset contents. -/
def Obligations.RegisterResetBeatsWrite : Prop :=
  ∀ s u : State, takeStimulus s = .next u → u.wiring = Wiring.standAlone → u.current.dm.address.toNat < 0x100 →
    u.current.rf.rstN = 0#1 →
    ∃ t, step s = .next t ∧
      (∀ (k : Nat) (h : k < 32), t.current.rf.storage[k] = 0x00000000#32) ∧
      t.current.rf.readData1 = rfRead s.current.rf.storage u.current.rf.address1 ∧
      t.current.rf.readData2 = rfRead s.current.rf.storage u.current.rf.address2

/-- R188: with `rst_n = 1` and `write_enable = 0` or `address3 = 0` the register storage after the edge is the storage
before it. -/
def Obligations.RegisterHold : Prop :=
  ∀ s u : State, takeStimulus s = .next u → u.wiring = Wiring.standAlone → u.current.dm.address.toNat < 0x100 →
    u.current.rf.rstN = 1#1 → (u.current.rf.writeEnable = 0#1 ∨ u.current.rf.address3 = 0#5) →
    ∃ t, step s = .next t ∧ t.current.rf.storage = s.current.rf.storage

/-! ### The Data Memory (spec/44_data_memory.md, spec/20_memory.md) -/

/-- R205, R211: a write with `rst_n = 1` to a word-aligned address in range gives that word the value after the edge and
leaves every other word alone; the read of the same cycle returns the word before the write. -/
def Obligations.AlignedWriteStoresExactlyOneWord : Prop :=
  ∀ s u : State, takeStimulus s = .next u → u.wiring = Wiring.standAlone → Memory.wf s.current.dm.storage = true →
    u.current.dm.address.toNat < 0x100 → u.current.dm.rstN = 1#1 → u.current.dm.writeEnable = 1#1 →
    u.current.dm.address.toNat % 4 = 0 →
    ∃ t, step s = .next t ∧
      (∀ w, Memory.lookup t.current.dm.storage w =
        if w = u.current.dm.address.toNat / 4 then u.current.dm.writeData
        else Memory.lookup s.current.dm.storage w) ∧
      t.current.dm.readData = Memory.lookup s.current.dm.storage (u.current.dm.address.toNat / 4)

/-- R210: a write with `rst_n = 1` to a misaligned address in range changes no word and raises nothing. -/
def Obligations.MisalignedWriteIsIgnored : Prop :=
  ∀ s u : State, takeStimulus s = .next u → u.wiring = Wiring.standAlone → u.current.dm.address.toNat < 0x100 →
    u.current.dm.rstN = 1#1 → u.current.dm.writeEnable = 1#1 → u.current.dm.address.toNat % 4 ≠ 0 →
    ∃ t, step s = .next t ∧ t.current.dm.storage = s.current.dm.storage ∧
      t.current.dm.readData = Memory.lookup s.current.dm.storage (u.current.dm.address.toNat / 4)

/-- R203, R204: in EVERY cycle whose address is in range (reset and write cycles included) `read_data` is the pre-edge word
at `address >> 2`; the two low bits of the address take no part. -/
def Obligations.ReadReturnsTheAlignedWord : Prop :=
  ∀ s u : State, takeStimulus s = .next u → u.wiring = Wiring.standAlone → u.current.dm.address.toNat < 0x100 →
    ∃ t, step s = .next t ∧
      t.current.dm.readData = Memory.lookup s.current.dm.storage (u.current.dm.address.toNat / 4)

/-- R206, R208: with `rst_n = 0` and an address in range every word is 0 after the edge, whatever write is presented,
and `read_data` of that cycle is the pre-reset word. -/
def Obligations.MemoryResetBeatsWrite : Prop :=
  ∀ s u : State, takeStimulus s = .next u → u.wiring = Wiring.standAlone → u.current.dm.address.toNat < 0x100 →
    u.current.dm.rstN = 0#1 →
    ∃ t, step s = .next t ∧ (∀ w, Memory.lookup t.current.dm.storage w = 0x00000000#32) ∧
      t.current.dm.readData = Memory.lookup s.current.dm.storage (u.current.dm.address.toNat / 4)

/-- R209: with `rst_n = 1` and `write_enable = 0` nothing in the memory changes. -/
def Obligations.MemoryHold : Prop :=
  ∀ s u : State, takeStimulus s = .next u → u.wiring = Wiring.standAlone → u.current.dm.address.toNat < 0x100 →
    u.current.dm.rstN = 1#1 → u.current.dm.writeEnable = 0#1 →
    ∃ t, step s = .next t ∧ t.current.dm.storage = s.current.dm.storage

/-- R73: in any run, whatever the connections are, the read of a cycle returns what the earlier cycles made of the word it
selects: 0 since a reset cycle, else the value of the most recent successful write, else what the word held at the start. -/
def Obligations.ReadReturnsTheMostRecentWrite : Prop :=
  ∀ (s : State) (earlier : List State) (t : State) (later : List State),
    Memory.wf s.current.dm.storage = true → Run s (earlier ++ t :: later) →
    t.current.dm.readData =
      earlier.foldl (fun v r => dmEffect (t.current.dm.address.toNat / 4) v r.current.dm)
        (Memory.lookup s.current.dm.storage (t.current.dm.address.toNat / 4))

/-! ### Failures (spec/60_exceptions.md) -/

/-- R207 (decision D5 of the spec): with the blocks standing alone a cycle fails with `AddressOutOfRange(address)` exactly
when `address >= 0x100`, whatever `write_enable`, `rst_n` and the alignment are, and completes otherwise. -/
def Obligations.OutOfRangeAddressFailsTheCycle : Prop :=
  ∀ s u : State, takeStimulus s = .next u → u.wiring = Wiring.standAlone →
    (0x100 ≤ u.current.dm.address.toNat → step s = .fault (.addressOutOfRange u.current.dm.address)) ∧
    (u.current.dm.address.toNat < 0x100 → ∃ t, step s = .next t)

/-- R130 (decision D7 of the spec): a row with a value that does not fit its Input fails the step with `WidthOverflow`, and a
row whose values all fit is assigned before the evaluation. The model's choices: of several values that do not fit the FIRST
of the row is named (log entry 5), the row is consumed (log entry 4), and it is assigned value by value (log entry 22). -/
def Obligations.TooWideValueIsWidthOverflow : Prop :=
  ∀ (s : State) (row : StimulusRow) (rest : List StimulusRow), s.stimulus = row :: rest →
    (rowFits row = true → ∃ u, takeStimulus s = .next u ∧
      u.current = row.foldl (fun g p => setInput p.1 p.2 g) s.current ∧ u.stimulus = rest) ∧
    (∀ (before after : StimulusRow) (i : InputId) (v : Nat), row = before ++ (i, v) :: after →
      rowFits before = true → 2 ^ inputWidth i ≤ v → step s = .fault (.widthOverflow i v))

/-- R260, R267 (derived by the spec from R261 to R263): from every state a step answers a next state, an `AddressOutOfRange`
of an address of `0x100` or more, or a `WidthOverflow` of a value the next row offers and that does not fit; or the run of
the reference datapath has ended (R252, decision D10 of the spec; that the model then answers a refusal is its own choice,
log entry 23). There is nothing else. -/
def Obligations.StepHasNoOtherFailure : Prop :=
  ∀ s : State,
    (∃ t, step s = .next t) ∨
    (∃ a : Word, 0x100 ≤ a.toNat ∧ step s = .fault (.addressOutOfRange a)) ∨
    (∃ (row : StimulusRow) (rest : List StimulusRow) (i : InputId) (v : Nat),
      s.stimulus = row :: rest ∧ (i, v) ∈ row ∧ 2 ^ inputWidth i ≤ v ∧ step s = .fault (.widthOverflow i v)) ∨
    (isReference s.wiring = true ∧ s.stimulus = [] ∧ step s = .refused .endOfRun)

/-! ### The update discipline (spec/40_update_engine.md) -/

/-- R127 (decision D4 of the spec): whatever the connections are, a completing cycle gives each block's Outputs as `out`
of the storage before the edge and of its Input values in that cycle, and each storage as `next` of the same. (After the
commit an Output cell holds the value the Output had during the cycle, and an Input cell the value the cycle used.) -/
def Obligations.EveryCycleMeetsTheBlockFunctions : Prop :=
  ∀ s t : State, step s = .next t →
    (t.current.alu.result, t.current.alu.zero) =
      outALU t.current.alu.aluControl t.current.alu.src1 t.current.alu.src2 ∧
    t.current.se.immediate = outSE t.current.se.raw t.current.se.immSrc ∧
    (⟨t.current.ctrl.aluControl, t.current.ctrl.immSource, t.current.ctrl.memWrite, t.current.ctrl.regWrite,
      t.current.ctrl.controlOp⟩ : CtrlOut) =
      outCTRL t.current.ctrl.op t.current.ctrl.func3 t.current.ctrl.func7 t.current.ctrl.aluZero ∧
    t.current.rf.readData1 = rfRead s.current.rf.storage t.current.rf.address1 ∧
    t.current.rf.readData2 = rfRead s.current.rf.storage t.current.rf.address2 ∧
    t.current.rf.storage = nextRF s.current.rf.storage t.current.rf.rstN t.current.rf.address3 t.current.rf.writeData
      t.current.rf.writeEnable ∧
    stepDM s.current.dm.storage t.current.dm.rstN t.current.dm.address t.current.dm.writeData t.current.dm.writeEnable =
      .ok (t.current.dm.readData, t.current.dm.storage)

/-- R132, R240, R245 (decisions D10 and D13 of the spec; log entry 9): in a completing cycle each connection's consumer
Input has the producer's Output of the same cycle where `WIRE_LATENCY` is 0, the producer's committed Output of before the
cycle where it is 1, and what the environment has offered where the connection is not made. The model's choices: a connection
that is made overrides what a row offers on its Input (log entry 11, DESIGN CHOICE); and where `WIRE_LATENCY` is 1 and no block
has been evaluated yet, so that R48 (derived by the spec from R23 and R146) forbids the copy, the Input keeps the value it has,
offered or of construction (log entry 10, DESIGN CHOICE). -/
def Obligations.ConnectionsCarryTheirProducersValue : Prop :=
  ∀ s u t : State, takeStimulus s = .next u → step s = .next t →
    ∀ c : Connection,
      (linkOf s.wiring c = .direct → consumerValue c t.current = readOutput (source c) t.current) ∧
      (linkOf s.wiring c = .registered → s.hasEvaluated = true →
        consumerValue c t.current = readOutput (source c) s.current) ∧
      (linkOf s.wiring c = .registered → s.hasEvaluated = false →
        consumerValue c t.current = consumerValue c u.current) ∧
      (linkOf s.wiring c = .environment → consumerValue c t.current = consumerValue c u.current)

/-- R21, R293: with the blocks standing alone a cycle changes no Input: every Input keeps what the environment has offered,
reset cycles included. -/
def Obligations.StandAloneCycleChangesNoInput : Prop :=
  ∀ s u t : State, takeStimulus s = .next u → u.wiring = Wiring.standAlone → step s = .next t →
    SameInputs t.current u.current

/-- R131: with the blocks standing alone no block influences another: two cycles that give one block the same Inputs (and,
for a clocked block, the same storage) give that block the same Outputs and storage, whatever all the rest is (what its
Output cells held before the cycle included). -/
def Obligations.StandAloneBlocksDoNotInfluenceEachOther : Prop :=
  ∀ s u t s' u' t' : State, takeStimulus s = .next u → takeStimulus s' = .next u' →
    u.wiring = Wiring.standAlone → u'.wiring = Wiring.standAlone → step s = .next t → step s' = .next t' →
    (u.current.alu.aluControl = u'.current.alu.aluControl → u.current.alu.src1 = u'.current.alu.src1 →
      u.current.alu.src2 = u'.current.alu.src2 → t.current.alu = t'.current.alu) ∧
    (u.current.se.raw = u'.current.se.raw → u.current.se.immSrc = u'.current.se.immSrc →
      t.current.se = t'.current.se) ∧
    (u.current.ctrl.op = u'.current.ctrl.op →
      t.current.ctrl.aluControl = t'.current.ctrl.aluControl ∧ t.current.ctrl.immSource = t'.current.ctrl.immSource ∧
      t.current.ctrl.memWrite = t'.current.ctrl.memWrite ∧ t.current.ctrl.regWrite = t'.current.ctrl.regWrite) ∧
    ({ u.current.rf with readData1 := 0, readData2 := 0 } = { u'.current.rf with readData1 := 0, readData2 := 0 } →
      t.current.rf = t'.current.rf) ∧
    ({ u.current.dm with readData := 0 } = { u'.current.dm with readData := 0 } → t.current.dm = t'.current.dm)

/-- R124: where no connection has latency 0, the five blocks may be evaluated in any order: every permutation of them, from
the same committed state, gives the cycle's outcome. -/
def Obligations.EvaluationOrderDoesNotMatter : Prop :=
  ∀ (s : State) (order : List Block), noLink .direct s.wiring = true → order.Perm allBlocks →
    andThen (updateBlocks order (copyAllRegistered (restage s))) (fun u => .next (commit u)) = cycle s

/-- R122: until the commit no Output, Local or storage word of the current values has changed; the commit then makes
every pending value current at once. -/
def Obligations.CommitIsTheOnlyChangeOfState : Prop :=
  ∀ s e : State, evaluate (restage s) = .next e →
    (∀ o, readOutput o e.current = readOutput o s.current) ∧
    e.current.se.gatheredImm = s.current.se.gatheredImm ∧ e.current.ctrl.controlOp = s.current.ctrl.controlOp ∧
    e.current.rf.storage = s.current.rf.storage ∧ e.current.dm.storage = s.current.dm.storage ∧
    ∃ t, cycle s = .next t ∧ t.current = e.pending ∧ t.pending = e.pending

/-- R44: no step depends on any pending value: it is overwritten before anything reads it. -/
def Obligations.NoStepReadsAPendingValue : Prop :=
  ∀ (s : State) (p : Signals), step { s with pending := p } = step s

/-- R48 (which the spec derives from R23 and R146; log entry 10): until the blocks have been evaluated once, and always where
no connection has latency 1, no step depends on what any Output or Local cell holds: from states that agree on all Inputs and
both storages it answers the same. -/
def Obligations.NoStepReadsAnUnevaluatedOutput : Prop :=
  ∀ (s : State) (g : Signals), s.hasEvaluated = false ∨ noLink .registered s.wiring = true →
    SameInputs g s.current → g.rf.storage = s.current.rf.storage → g.dm.storage = s.current.dm.storage →
    step { s with current := g } = step s

/-- The wiring never changes, a completing step consumes exactly its row of the stimulus, and after it the blocks have been
evaluated (the model's own bookkeeping: log entries 4 and 9, DESIGN CHOICE, and 10, DEDUCED from R48). -/
def Obligations.StepKeepsWiringAndConsumesItsRow : Prop :=
  ∀ s t : State, step s = .next t →
    t.wiring = s.wiring ∧ t.stimulus = s.stimulus.tail ∧ t.hasEvaluated = true

/-! ### The step and the rows it runs -/

/-- A step is the environment's offer, then, on the offered Inputs: the registered connections; `exec` of the row decoded
from `op`; `exec` of the row decoded from `imm_src`; the read ports; `exec` of the row decoded from `alu_control`; the
Data Memory; the Register File's edge; direct connections copied in between; and the commit. A row that does not fit fails
the step, and a run that has ended refuses it. The structure of the step and its fixed order are the model's own: log
entry 1 (DEDUCED: a step is a cycle, `exec` a block's update), 4 (DESIGN CHOICE: the offered rows), 12 (DEDUCED:
`alu_zero` copied after the ALU), 17 (DESIGN CHOICE: the order of evaluation) and 23 (DESIGN CHOICE: the refusal). -/
def Obligations.StepRunsTheDecodedRows : Prop :=
  (∀ s u : State, takeStimulus s = .next u →
    step s =
      andThen
        (andThen (exec (decodeOp (copyAllRegistered (restage u)).current.ctrl.op) (copyAllRegistered (restage u))) fun a =>
          andThen (exec (decodeImmSrc (copyDirects [.immSrc] a).current.se.immSrc) (copyDirects [.immSrc] a)) fun b =>
          andThen (exec
              (decodeAluControl (copyDirects [.aluControl, .src1, .src2] (rfReadPorts b)).current.alu.aluControl)
              (copyDirects [.aluControl, .src1, .src2] (rfReadPorts b))) fun c =>
          andThen (updateDataMemory (copyDirects [.aluZero, .memWrite, .address, .dmWriteData] c)) fun d =>
          .next (rfStage (copyDirects [.regWrite, .rfWriteData] d)))
        fun e => .next (commit e)) ∧
  (∀ (s : State) (f : Fault), takeStimulus s = .fault f → step s = .fault f) ∧
  (∀ (s : State) (r : Refusal), takeStimulus s = .refused r → step s = .refused r)

/-- The host's way of presenting a row (the model's choice: log entries 2 and 3): a number that decodes to a row puts that
row's code on the Input of its selector for the next step, leaves the environment in charge of that Input, and keeps the
rows that were there; from the reset state the step completes. -/
def Obligations.PresentedTableWordIsTheNextRow : Prop :=
  ∀ (s : State) (nbits w : Nat) (i : Instr), decodeTableWord nbits w = some i →
    (∃ u, takeStimulus (s.withFetchWord nbits w) = .next u ∧ u.stimulus = s.stimulus ∧
      u.current.rf.storage = s.current.rf.storage ∧ u.current.dm.storage = s.current.dm.storage ∧
      ((i.port = .op7 ∧ opRow u = i) ∨
        (i.port = .aluControl3 ∧ aluRow u = i ∧ u.wiring.aluControl = .environment) ∨
        (i.port = .immSrc2 ∧ immRow u = i ∧ u.wiring.immSrc = .environment))) ∧
    ∃ t, step (State.reset.withFetchWord nbits w) = .next t

/-! ### The invariant and reset -/

/-- From every state that meets the invariant, a completing step gives a state that meets it: committed and pending agree,
`rf[0]` is 0 (R46, decision D9 of the spec; log entry 18), the memory is in the model's canonical form (log entry 7),
`immediate` is the sign extension of `gathered_imm`, and the Controller's constant controls hold. -/
def Obligations.StepKeepsTheInvariant : Prop :=
  ∀ s t : State, Inv s → step s = .next t → Inv t

/-- The construction state meets the invariant. -/
def Obligations.ResetMeetsTheInvariant : Prop :=
  Inv State.reset

/-- R290 (which the spec derives from R23): at construction all registers and memory words are 0, every Input, Local and
Output cell is 0, both `rst_n` included, and every pending value with its current one. -/
def Obligations.ConstructionStateIsAllZero : Prop :=
  (∀ (k : Nat) (h : k < 32), State.reset.current.rf.storage[k] = 0x00000000#32) ∧
  (∀ w, Memory.lookup State.reset.current.dm.storage w = 0x00000000#32) ∧
  (∀ o, readOutput o State.reset.current = 0) ∧
  (∀ i : InputId, setInput i 0 State.reset.current = State.reset.current) ∧
  State.reset.current.se.gatheredImm = 0x000#12 ∧ State.reset.current.ctrl.controlOp = 0b00#2 ∧
  State.reset.current.rf.rstN = 0#1 ∧ State.reset.current.dm.rstN = 0#1 ∧ State.reset.pending = State.reset.current

/-- R299 (which the spec derives from R290): left at the construction values, the blocks standing alone (log
entries 3, 4 and 9), the first cycle is a reset cycle of both clocked blocks with an address in range and does not fail; the
storage is all 0 after it, as it was before. -/
def Obligations.FirstCycleFromConstructionIsAResetCycle : Prop :=
  State.reset.current.rf.rstN = 0#1 ∧ State.reset.current.dm.rstN = 0#1 ∧ inRange State.reset.current.dm.address = true ∧
  ∃ t, step State.reset = .next t ∧ t.current.rf.storage = State.reset.current.rf.storage ∧
    t.current.dm.storage = State.reset.current.dm.storage

/-- R297 (which the spec derives from R290 and R292): one cycle with both `rst_n` at 0 leaves both storages as they are at
construction, from any state. -/
def Obligations.OneResetCycleRestoresConstructionStorage : Prop :=
  ∀ s u : State, takeStimulus s = .next u → u.wiring = Wiring.standAlone → u.current.dm.address.toNat < 0x100 →
    u.current.rf.rstN = 0#1 → u.current.dm.rstN = 0#1 →
    ∃ t, step s = .next t ∧ t.current.rf.storage = State.reset.current.rf.storage ∧
      t.current.dm.storage = State.reset.current.dm.storage

/-- R293: the two clocked blocks are reset separately: each reset clears its own storage, leaves the other block's, and
changes no Input Signal of any block. -/
def Obligations.ResetsAreSeparate : Prop :=
  ∀ s u : State, takeStimulus s = .next u → u.wiring = Wiring.standAlone → u.current.dm.address.toNat < 0x100 →
    (u.current.rf.rstN = 0#1 → u.current.dm.rstN = 1#1 → u.current.dm.writeEnable = 0#1 →
      ∃ t, step s = .next t ∧ t.current.rf.storage = rfCleared ∧ t.current.dm.storage = s.current.dm.storage ∧
        SameInputs t.current u.current) ∧
    (u.current.dm.rstN = 0#1 → u.current.rf.rstN = 1#1 → u.current.rf.writeEnable = 0#1 →
      ∃ t, step s = .next t ∧ t.current.dm.storage = Memory.cleared ∧ t.current.rf.storage = s.current.rf.storage ∧
        SameInputs t.current u.current)

/-! ### The connections and the reference datapath (spec/46_composition.md) -/

/-- R241, for the connections of R240 and R245: the two ends of every connection have equal width, and no copied value can
be too wide. -/
def Obligations.ConnectionEndsHaveEqualWidth : Prop :=
  ∀ c : Connection, outputWidth (source c) = inputWidth (target c) ∧
    ∀ g : Signals, readOutput (source c) g < 2 ^ inputWidth (target c)

/-- R246 (with the layout and the wiring of decision D10 of the spec): with the wiring of R245, a step that is offered an
instruction word and `rst_n` does to `rf` and `dm` exactly what `step_DP` says, and fails exactly when it does. -/
def Obligations.ReferenceDatapathMeetsStepDP : Prop :=
  ∀ (s : State) (instr : Word) (rstN : Bit) (rest : List StimulusRow), s.wiring = Wiring.reference →
    s.stimulus = [(.instr, instr.toNat), (.rstN, rstN.toNat)] :: rest →
    match stepDP s.current.rf.storage s.current.dm.storage instr rstN with
    | .error f => step s = .fault f
    | .ok (rf', dm') => ∃ t, step s = .next t ∧ t.current.rf.storage = rf' ∧ t.current.dm.storage = dm'

/-- R247 (decision D10 of the spec): `lw rd, imm(rs1)`, with any `func3`: the address is `x[rs1] + sext_32(imm)`; below
`0x100` the aligned word there goes to `rd` (to no register when `rd = 0`) and `dm` is unchanged, or with `rst_n = 0` both
storages are cleared; from `0x100` on the cycle fails. -/
def Obligations.LwLoadsTheAddressedWord : Prop :=
  ∀ (s : State) (rd rs1 : RegIdx) (imm : ImmField) (func3 : BitVec 3) (rstN : Bit) (rest : List StimulusRow) (addr : Word),
    s.wiring = Wiring.reference →
    s.stimulus = [(.instr, (encodeWord (.lw rd rs1 imm func3)).toNat), (.rstN, rstN.toNat)] :: rest →
    addr = rfRead s.current.rf.storage rs1 + imm.signExtend 32 →
    (addr.toNat < 0x100 → ∃ t, step s = .next t ∧
      (rstN = 1#1 → t.current.dm.storage = s.current.dm.storage ∧
        ∀ i : RegIdx, rfRead t.current.rf.storage i =
          if i = rd ∧ rd ≠ 0#5 then Memory.lookup s.current.dm.storage (addr.toNat / 4)
          else rfRead s.current.rf.storage i) ∧
      (rstN = 0#1 → t.current.dm.storage = Memory.cleared ∧ t.current.rf.storage = rfCleared)) ∧
    (0x100 ≤ addr.toNat → step s = .fault (.addressOutOfRange addr))

/-- R248, R249 (decision D10 of the spec): every other instruction word changes neither `rf` nor `dm` (both are cleared
when `rst_n = 0`); its address `x[instr[19:15]] + sext_32(instr[31:20])` is still formed and from `0x100` on the cycle
fails. -/
def Obligations.OtherWordsChangeNoStorage : Prop :=
  ∀ (s : State) (instr : Word) (rstN : Bit) (rest : List StimulusRow) (addr : Word), s.wiring = Wiring.reference →
    s.stimulus = [(.instr, instr.toNat), (.rstN, rstN.toNat)] :: rest →
    instr.extractLsb' 0 7 ≠ 0b0000011#7 →
    addr = rfRead s.current.rf.storage (instr.extractLsb' 15 5) + (instr.extractLsb' 20 12).signExtend 32 →
    (addr.toNat < 0x100 → ∃ t, step s = .next t ∧
      (rstN = 1#1 → t.current.rf.storage = s.current.rf.storage ∧ t.current.dm.storage = s.current.dm.storage) ∧
      (rstN = 0#1 → t.current.rf.storage = rfCleared ∧ t.current.dm.storage = Memory.cleared)) ∧
    (0x100 ≤ addr.toNat → step s = .fault (.addressOutOfRange addr))

/-- R251 (decision D10 of the spec): in the reference datapath no step changes `dm` but a reset cycle, whatever the
environment offers; and with `dm` all zero every word read is 0. That it holds of rows that offer the Data Memory's Inputs
directly too is the model's choice: such rows are admitted (log entry 22), and a connection that is made overrides what they
offer (log entry 11). -/
def Obligations.OnlyResetChangesMemoryInTheReferenceDatapath : Prop :=
  ∀ s t : State, s.wiring = Wiring.reference → step s = .next t →
    (t.current.dm.rstN = 1#1 → t.current.dm.storage = s.current.dm.storage) ∧
    (s.current.dm.storage = Memory.cleared → t.current.dm.readData = 0x00000000#32)

/-- Every run of the reference datapath ends: it has at most one cycle for each row the environment has supplied, and after
the cycle of the last row no step is taken (R252, decision D10 of the spec; that the model says so by a refusal is its own
choice, log entry 23). -/
def Obligations.ReferenceDatapathRunEndsWithItsRows : Prop :=
  ∀ (s : State) (ts : List State), isReference s.wiring = true → Run s ts →
    ts.length ≤ s.stimulus.length ∧
    (ts.length = s.stimulus.length → step (ts.getLastD s) = .refused .endOfRun)

/-- R250 (decision D16 of the spec): with ALU `zero` connected to Controller `alu_zero`, in either latency, or not
connected, a step does the same to every Output and both storages: the apparent loop is none. That a step after the end of
a run is refused, and is refused alike whatever the connection is, is the model's choice (log entry 23). -/
def Obligations.AluZeroConnectionChangesNothing : Prop :=
  ∀ (s : State) (l : Link),
    (∀ f, step { s with wiring.aluZero := l } = .fault f ↔ step s = .fault f) ∧
    (∀ r, step { s with wiring.aluZero := l } = .refused r ↔ step s = .refused r) ∧
    ∀ t, step s = .next t → ∃ t', step { s with wiring.aluZero := l } = .next t' ∧
      (∀ o, readOutput o t'.current = readOutput o t.current) ∧
      t'.current.rf.storage = t.current.rf.storage ∧ t'.current.dm.storage = t.current.dm.storage

/-! ### Encodings (spec/30_encoding.md) -/

/-- Decode and encode agree for every row and for every word of the reference datapath, with every operand at every value:
the code of a well-formed row decodes to it, a presented code that decodes is the code of the row it decodes to, and the
same of 32-bit words. -/
def Obligations.DecodeAndEncodeAgree : Prop :=
  (∀ i : Instr, i.wf = true → decode (encode i) = .ok i) ∧
  (∀ (p : Presented) (i : Instr), decode p = .ok i → i.wf = true ∧ encode i = p) ∧
  (∀ d : DatapathWord, d.wf = true → decodeWord (encodeWord d) = d) ∧
  (∀ w : Word, (decodeWord w).wf = true ∧ encodeWord (decodeWord w) = w)

/-- R104: no code of any field is illegal: every code that fits its field decodes to a row, which runs in every state. That a
number that does not fit is refused by name and not truncated rests on R130 (decision D7 of the spec; log entry 5). -/
def Obligations.EveryCodeOfEveryFieldDecodes : Prop :=
  ∀ p : Presented,
    (p.wf = true → ∃ i, decode p = .ok i ∧ i.port = p.port ∧ ∀ s : State, ∃ t, exec i s = .next t) ∧
    (p.wf = false → decode p = .error (.codeTooWide p.port p.code))

/-- R99, R100 (decision D10 of the spec): cutting the word `imm[11:0] rs1 func3 rd 0000011` gives each field back, and
bits 24..13 of its `raw` are `imm`. -/
def Obligations.CuttingALoadWordGivesItsFields : Prop :=
  ∀ (rd rs1 : RegIdx) (imm : ImmField) (func3 : BitVec 3),
    (cutWord (encodeWord (.lw rd rs1 imm func3))).op = 0b0000011#7 ∧
    (cutWord (encodeWord (.lw rd rs1 imm func3))).rd = rd ∧
    (cutWord (encodeWord (.lw rd rs1 imm func3))).func3 = func3 ∧
    (cutWord (encodeWord (.lw rd rs1 imm func3))).rs1 = rs1 ∧
    (cutWord (encodeWord (.lw rd rs1 imm func3))).raw.extractLsb' 13 12 = imm ∧
    (cutWord (encodeWord (.lw rd rs1 imm func3))).rs2 = imm.extractLsb' 0 5 ∧
    (cutWord (encodeWord (.lw rd rs1 imm func3))).func7 = imm.extractLsb' 5 7

/-- Codes and a word written out from the spec's tables decode to the rows and the instruction they stand for: the codes of
R92 to R95; and `0xFFC0A103` is `lw x2, -4(x1)`, by the field positions of decision D10 of the spec (R99, R247; from general
knowledge: log entry 19, PRESUMED). -/
def Obligations.TableCodesDecodeAsWritten : Prop :=
  decode ⟨.op7, 0b0000011⟩ = .ok .load ∧ decode ⟨.op7, 0b0100011⟩ = .ok (.other 0b0100011#7) ∧
  decode ⟨.aluControl3, 0b000⟩ = .ok .aluAdd ∧ decode ⟨.aluControl3, 0b111⟩ = .ok .aluZero111 ∧
  decode ⟨.immSrc2, 0b00⟩ = .ok .immUpper12 ∧ decode ⟨.immSrc2, 0b10⟩ = .ok .immZero10 ∧
  decode ⟨.controlOp2, 0b00⟩ = .ok .ctrlopAdd ∧ decode ⟨.controlOp2, 0b11⟩ = .ok .ctrlopForcezero11 ∧
  decodeWord 0xFFC0A103#32 = .lw 2#5 1#5 0xFFC#12 0b010#3
end

