-- ==== Sys2Proof/Laws/State.lean ====
section
/-! SUPPORT. Laws/State.lean: one lemma per field per update, each true by rfl, so that no proof unfolds a record update. -/

namespace Sys2Proof.Machine

/-! ### `driveAlu` -/

@[simp] theorem driveAlu_current (r : Word) (s : State) : (driveAlu r s).current = s.current := rfl
@[simp] theorem driveAlu_hasEvaluated (r : Word) (s : State) : (driveAlu r s).hasEvaluated = s.hasEvaluated := rfl
@[simp] theorem driveAlu_wiring (r : Word) (s : State) : (driveAlu r s).wiring = s.wiring := rfl
@[simp] theorem driveAlu_stimulus (r : Word) (s : State) : (driveAlu r s).stimulus = s.stimulus := rfl
theorem driveAlu_pending_alu (r : Word) (s : State) :
    (driveAlu r s).pending.alu = { s.pending.alu with result := r, zero := zeroFlag r } := rfl
@[simp] theorem driveAlu_pending_alu_aluControl (r : Word) (s : State) :
    (driveAlu r s).pending.alu.aluControl = s.pending.alu.aluControl := rfl
@[simp] theorem driveAlu_pending_alu_src1 (r : Word) (s : State) :
    (driveAlu r s).pending.alu.src1 = s.pending.alu.src1 := rfl
@[simp] theorem driveAlu_pending_alu_src2 (r : Word) (s : State) :
    (driveAlu r s).pending.alu.src2 = s.pending.alu.src2 := rfl
@[simp] theorem driveAlu_pending_alu_result (r : Word) (s : State) :
    (driveAlu r s).pending.alu.result = r := rfl
@[simp] theorem driveAlu_pending_alu_zero (r : Word) (s : State) :
    (driveAlu r s).pending.alu.zero = zeroFlag r := rfl
@[simp] theorem driveAlu_pending_se (r : Word) (s : State) :
    (driveAlu r s).pending.se = s.pending.se := rfl
@[simp] theorem driveAlu_pending_rf (r : Word) (s : State) :
    (driveAlu r s).pending.rf = s.pending.rf := rfl
@[simp] theorem driveAlu_pending_dm (r : Word) (s : State) :
    (driveAlu r s).pending.dm = s.pending.dm := rfl
@[simp] theorem driveAlu_pending_ctrl (r : Word) (s : State) :
    (driveAlu r s).pending.ctrl = s.pending.ctrl := rfl

/-! ### `driveImmediate` -/

@[simp] theorem driveImmediate_current (g : ImmField) (s : State) : (driveImmediate g s).current = s.current := rfl
@[simp] theorem driveImmediate_hasEvaluated (g : ImmField) (s : State) : (driveImmediate g s).hasEvaluated = s.hasEvaluated := rfl
@[simp] theorem driveImmediate_wiring (g : ImmField) (s : State) : (driveImmediate g s).wiring = s.wiring := rfl
@[simp] theorem driveImmediate_stimulus (g : ImmField) (s : State) : (driveImmediate g s).stimulus = s.stimulus := rfl
@[simp] theorem driveImmediate_pending_alu (g : ImmField) (s : State) :
    (driveImmediate g s).pending.alu = s.pending.alu := rfl
theorem driveImmediate_pending_se (g : ImmField) (s : State) :
    (driveImmediate g s).pending.se = { s.pending.se with gatheredImm := g, immediate := signExtendImm g } := rfl
@[simp] theorem driveImmediate_pending_se_raw (g : ImmField) (s : State) :
    (driveImmediate g s).pending.se.raw = s.pending.se.raw := rfl
@[simp] theorem driveImmediate_pending_se_immSrc (g : ImmField) (s : State) :
    (driveImmediate g s).pending.se.immSrc = s.pending.se.immSrc := rfl
@[simp] theorem driveImmediate_pending_se_gatheredImm (g : ImmField) (s : State) :
    (driveImmediate g s).pending.se.gatheredImm = g := rfl
@[simp] theorem driveImmediate_pending_se_immediate (g : ImmField) (s : State) :
    (driveImmediate g s).pending.se.immediate = signExtendImm g := rfl
@[simp] theorem driveImmediate_pending_rf (g : ImmField) (s : State) :
    (driveImmediate g s).pending.rf = s.pending.rf := rfl
@[simp] theorem driveImmediate_pending_dm (g : ImmField) (s : State) :
    (driveImmediate g s).pending.dm = s.pending.dm := rfl
@[simp] theorem driveImmediate_pending_ctrl (g : ImmField) (s : State) :
    (driveImmediate g s).pending.ctrl = s.pending.ctrl := rfl

/-! ### `driveFirstStage` -/

@[simp] theorem driveFirstStage_current (rw : Bit) (im : ImmCode) (mw : Bit) (co : CtrlCode) (s : State) : (driveFirstStage rw im mw co s).current = s.current := rfl
@[simp] theorem driveFirstStage_hasEvaluated (rw : Bit) (im : ImmCode) (mw : Bit) (co : CtrlCode) (s : State) : (driveFirstStage rw im mw co s).hasEvaluated = s.hasEvaluated := rfl
@[simp] theorem driveFirstStage_wiring (rw : Bit) (im : ImmCode) (mw : Bit) (co : CtrlCode) (s : State) : (driveFirstStage rw im mw co s).wiring = s.wiring := rfl
@[simp] theorem driveFirstStage_stimulus (rw : Bit) (im : ImmCode) (mw : Bit) (co : CtrlCode) (s : State) : (driveFirstStage rw im mw co s).stimulus = s.stimulus := rfl
@[simp] theorem driveFirstStage_pending_alu (rw : Bit) (im : ImmCode) (mw : Bit) (co : CtrlCode) (s : State) :
    (driveFirstStage rw im mw co s).pending.alu = s.pending.alu := rfl
@[simp] theorem driveFirstStage_pending_se (rw : Bit) (im : ImmCode) (mw : Bit) (co : CtrlCode) (s : State) :
    (driveFirstStage rw im mw co s).pending.se = s.pending.se := rfl
@[simp] theorem driveFirstStage_pending_rf (rw : Bit) (im : ImmCode) (mw : Bit) (co : CtrlCode) (s : State) :
    (driveFirstStage rw im mw co s).pending.rf = s.pending.rf := rfl
@[simp] theorem driveFirstStage_pending_dm (rw : Bit) (im : ImmCode) (mw : Bit) (co : CtrlCode) (s : State) :
    (driveFirstStage rw im mw co s).pending.dm = s.pending.dm := rfl
theorem driveFirstStage_pending_ctrl (rw : Bit) (im : ImmCode) (mw : Bit) (co : CtrlCode) (s : State) :
    (driveFirstStage rw im mw co s).pending.ctrl = { s.pending.ctrl with regWrite := rw, immSource := im, memWrite := mw, controlOp := co } := rfl
@[simp] theorem driveFirstStage_pending_ctrl_op (rw : Bit) (im : ImmCode) (mw : Bit) (co : CtrlCode) (s : State) :
    (driveFirstStage rw im mw co s).pending.ctrl.op = s.pending.ctrl.op := rfl
@[simp] theorem driveFirstStage_pending_ctrl_func3 (rw : Bit) (im : ImmCode) (mw : Bit) (co : CtrlCode) (s : State) :
    (driveFirstStage rw im mw co s).pending.ctrl.func3 = s.pending.ctrl.func3 := rfl
@[simp] theorem driveFirstStage_pending_ctrl_func7 (rw : Bit) (im : ImmCode) (mw : Bit) (co : CtrlCode) (s : State) :
    (driveFirstStage rw im mw co s).pending.ctrl.func7 = s.pending.ctrl.func7 := rfl
@[simp] theorem driveFirstStage_pending_ctrl_aluZero (rw : Bit) (im : ImmCode) (mw : Bit) (co : CtrlCode) (s : State) :
    (driveFirstStage rw im mw co s).pending.ctrl.aluZero = s.pending.ctrl.aluZero := rfl
@[simp] theorem driveFirstStage_pending_ctrl_controlOp (rw : Bit) (im : ImmCode) (mw : Bit) (co : CtrlCode) (s : State) :
    (driveFirstStage rw im mw co s).pending.ctrl.controlOp = co := rfl
@[simp] theorem driveFirstStage_pending_ctrl_aluControl (rw : Bit) (im : ImmCode) (mw : Bit) (co : CtrlCode) (s : State) :
    (driveFirstStage rw im mw co s).pending.ctrl.aluControl = s.pending.ctrl.aluControl := rfl
@[simp] theorem driveFirstStage_pending_ctrl_immSource (rw : Bit) (im : ImmCode) (mw : Bit) (co : CtrlCode) (s : State) :
    (driveFirstStage rw im mw co s).pending.ctrl.immSource = im := rfl
@[simp] theorem driveFirstStage_pending_ctrl_memWrite (rw : Bit) (im : ImmCode) (mw : Bit) (co : CtrlCode) (s : State) :
    (driveFirstStage rw im mw co s).pending.ctrl.memWrite = mw := rfl
@[simp] theorem driveFirstStage_pending_ctrl_regWrite (rw : Bit) (im : ImmCode) (mw : Bit) (co : CtrlCode) (s : State) :
    (driveFirstStage rw im mw co s).pending.ctrl.regWrite = rw := rfl

/-! ### `driveAluControl` -/

@[simp] theorem driveAluControl_current (c : AluCode) (s : State) : (driveAluControl c s).current = s.current := rfl
@[simp] theorem driveAluControl_hasEvaluated (c : AluCode) (s : State) : (driveAluControl c s).hasEvaluated = s.hasEvaluated := rfl
@[simp] theorem driveAluControl_wiring (c : AluCode) (s : State) : (driveAluControl c s).wiring = s.wiring := rfl
@[simp] theorem driveAluControl_stimulus (c : AluCode) (s : State) : (driveAluControl c s).stimulus = s.stimulus := rfl
@[simp] theorem driveAluControl_pending_alu (c : AluCode) (s : State) :
    (driveAluControl c s).pending.alu = s.pending.alu := rfl
@[simp] theorem driveAluControl_pending_se (c : AluCode) (s : State) :
    (driveAluControl c s).pending.se = s.pending.se := rfl
@[simp] theorem driveAluControl_pending_rf (c : AluCode) (s : State) :
    (driveAluControl c s).pending.rf = s.pending.rf := rfl
@[simp] theorem driveAluControl_pending_dm (c : AluCode) (s : State) :
    (driveAluControl c s).pending.dm = s.pending.dm := rfl
theorem driveAluControl_pending_ctrl (c : AluCode) (s : State) :
    (driveAluControl c s).pending.ctrl = { s.pending.ctrl with aluControl := c } := rfl
@[simp] theorem driveAluControl_pending_ctrl_op (c : AluCode) (s : State) :
    (driveAluControl c s).pending.ctrl.op = s.pending.ctrl.op := rfl
@[simp] theorem driveAluControl_pending_ctrl_func3 (c : AluCode) (s : State) :
    (driveAluControl c s).pending.ctrl.func3 = s.pending.ctrl.func3 := rfl
@[simp] theorem driveAluControl_pending_ctrl_func7 (c : AluCode) (s : State) :
    (driveAluControl c s).pending.ctrl.func7 = s.pending.ctrl.func7 := rfl
@[simp] theorem driveAluControl_pending_ctrl_aluZero (c : AluCode) (s : State) :
    (driveAluControl c s).pending.ctrl.aluZero = s.pending.ctrl.aluZero := rfl
@[simp] theorem driveAluControl_pending_ctrl_controlOp (c : AluCode) (s : State) :
    (driveAluControl c s).pending.ctrl.controlOp = s.pending.ctrl.controlOp := rfl
@[simp] theorem driveAluControl_pending_ctrl_aluControl (c : AluCode) (s : State) :
    (driveAluControl c s).pending.ctrl.aluControl = c := rfl
@[simp] theorem driveAluControl_pending_ctrl_immSource (c : AluCode) (s : State) :
    (driveAluControl c s).pending.ctrl.immSource = s.pending.ctrl.immSource := rfl
@[simp] theorem driveAluControl_pending_ctrl_memWrite (c : AluCode) (s : State) :
    (driveAluControl c s).pending.ctrl.memWrite = s.pending.ctrl.memWrite := rfl
@[simp] theorem driveAluControl_pending_ctrl_regWrite (c : AluCode) (s : State) :
    (driveAluControl c s).pending.ctrl.regWrite = s.pending.ctrl.regWrite := rfl

/-! ### `driveReadPorts` -/

@[simp] theorem driveReadPorts_current (d1 d2 : Word) (s : State) : (driveReadPorts d1 d2 s).current = s.current := rfl
@[simp] theorem driveReadPorts_hasEvaluated (d1 d2 : Word) (s : State) : (driveReadPorts d1 d2 s).hasEvaluated = s.hasEvaluated := rfl
@[simp] theorem driveReadPorts_wiring (d1 d2 : Word) (s : State) : (driveReadPorts d1 d2 s).wiring = s.wiring := rfl
@[simp] theorem driveReadPorts_stimulus (d1 d2 : Word) (s : State) : (driveReadPorts d1 d2 s).stimulus = s.stimulus := rfl
@[simp] theorem driveReadPorts_pending_alu (d1 d2 : Word) (s : State) :
    (driveReadPorts d1 d2 s).pending.alu = s.pending.alu := rfl
@[simp] theorem driveReadPorts_pending_se (d1 d2 : Word) (s : State) :
    (driveReadPorts d1 d2 s).pending.se = s.pending.se := rfl
theorem driveReadPorts_pending_rf (d1 d2 : Word) (s : State) :
    (driveReadPorts d1 d2 s).pending.rf = { s.pending.rf with readData1 := d1, readData2 := d2 } := rfl
@[simp] theorem driveReadPorts_pending_rf_rstN (d1 d2 : Word) (s : State) :
    (driveReadPorts d1 d2 s).pending.rf.rstN = s.pending.rf.rstN := rfl
@[simp] theorem driveReadPorts_pending_rf_address1 (d1 d2 : Word) (s : State) :
    (driveReadPorts d1 d2 s).pending.rf.address1 = s.pending.rf.address1 := rfl
@[simp] theorem driveReadPorts_pending_rf_address2 (d1 d2 : Word) (s : State) :
    (driveReadPorts d1 d2 s).pending.rf.address2 = s.pending.rf.address2 := rfl
@[simp] theorem driveReadPorts_pending_rf_address3 (d1 d2 : Word) (s : State) :
    (driveReadPorts d1 d2 s).pending.rf.address3 = s.pending.rf.address3 := rfl
@[simp] theorem driveReadPorts_pending_rf_writeData (d1 d2 : Word) (s : State) :
    (driveReadPorts d1 d2 s).pending.rf.writeData = s.pending.rf.writeData := rfl
@[simp] theorem driveReadPorts_pending_rf_writeEnable (d1 d2 : Word) (s : State) :
    (driveReadPorts d1 d2 s).pending.rf.writeEnable = s.pending.rf.writeEnable := rfl
@[simp] theorem driveReadPorts_pending_rf_readData1 (d1 d2 : Word) (s : State) :
    (driveReadPorts d1 d2 s).pending.rf.readData1 = d1 := rfl
@[simp] theorem driveReadPorts_pending_rf_readData2 (d1 d2 : Word) (s : State) :
    (driveReadPorts d1 d2 s).pending.rf.readData2 = d2 := rfl
@[simp] theorem driveReadPorts_pending_rf_storage (d1 d2 : Word) (s : State) :
    (driveReadPorts d1 d2 s).pending.rf.storage = s.pending.rf.storage := rfl
@[simp] theorem driveReadPorts_pending_dm (d1 d2 : Word) (s : State) :
    (driveReadPorts d1 d2 s).pending.dm = s.pending.dm := rfl
@[simp] theorem driveReadPorts_pending_ctrl (d1 d2 : Word) (s : State) :
    (driveReadPorts d1 d2 s).pending.ctrl = s.pending.ctrl := rfl

/-! ### `stageRf` -/

@[simp] theorem stageRf_current (v : Vector Word Config.nregs) (s : State) : (stageRf v s).current = s.current := rfl
@[simp] theorem stageRf_hasEvaluated (v : Vector Word Config.nregs) (s : State) : (stageRf v s).hasEvaluated = s.hasEvaluated := rfl
@[simp] theorem stageRf_wiring (v : Vector Word Config.nregs) (s : State) : (stageRf v s).wiring = s.wiring := rfl
@[simp] theorem stageRf_stimulus (v : Vector Word Config.nregs) (s : State) : (stageRf v s).stimulus = s.stimulus := rfl
@[simp] theorem stageRf_pending_alu (v : Vector Word Config.nregs) (s : State) :
    (stageRf v s).pending.alu = s.pending.alu := rfl
@[simp] theorem stageRf_pending_se (v : Vector Word Config.nregs) (s : State) :
    (stageRf v s).pending.se = s.pending.se := rfl
theorem stageRf_pending_rf (v : Vector Word Config.nregs) (s : State) :
    (stageRf v s).pending.rf = { s.pending.rf with storage := v } := rfl
@[simp] theorem stageRf_pending_rf_rstN (v : Vector Word Config.nregs) (s : State) :
    (stageRf v s).pending.rf.rstN = s.pending.rf.rstN := rfl
@[simp] theorem stageRf_pending_rf_address1 (v : Vector Word Config.nregs) (s : State) :
    (stageRf v s).pending.rf.address1 = s.pending.rf.address1 := rfl
@[simp] theorem stageRf_pending_rf_address2 (v : Vector Word Config.nregs) (s : State) :
    (stageRf v s).pending.rf.address2 = s.pending.rf.address2 := rfl
@[simp] theorem stageRf_pending_rf_address3 (v : Vector Word Config.nregs) (s : State) :
    (stageRf v s).pending.rf.address3 = s.pending.rf.address3 := rfl
@[simp] theorem stageRf_pending_rf_writeData (v : Vector Word Config.nregs) (s : State) :
    (stageRf v s).pending.rf.writeData = s.pending.rf.writeData := rfl
@[simp] theorem stageRf_pending_rf_writeEnable (v : Vector Word Config.nregs) (s : State) :
    (stageRf v s).pending.rf.writeEnable = s.pending.rf.writeEnable := rfl
@[simp] theorem stageRf_pending_rf_readData1 (v : Vector Word Config.nregs) (s : State) :
    (stageRf v s).pending.rf.readData1 = s.pending.rf.readData1 := rfl
@[simp] theorem stageRf_pending_rf_readData2 (v : Vector Word Config.nregs) (s : State) :
    (stageRf v s).pending.rf.readData2 = s.pending.rf.readData2 := rfl
@[simp] theorem stageRf_pending_rf_storage (v : Vector Word Config.nregs) (s : State) :
    (stageRf v s).pending.rf.storage = v := rfl
@[simp] theorem stageRf_pending_dm (v : Vector Word Config.nregs) (s : State) :
    (stageRf v s).pending.dm = s.pending.dm := rfl
@[simp] theorem stageRf_pending_ctrl (v : Vector Word Config.nregs) (s : State) :
    (stageRf v s).pending.ctrl = s.pending.ctrl := rfl

/-! ### `stageDm` -/

@[simp] theorem stageDm_current (d : Word) (m : Memory) (s : State) : (stageDm d m s).current = s.current := rfl
@[simp] theorem stageDm_hasEvaluated (d : Word) (m : Memory) (s : State) : (stageDm d m s).hasEvaluated = s.hasEvaluated := rfl
@[simp] theorem stageDm_wiring (d : Word) (m : Memory) (s : State) : (stageDm d m s).wiring = s.wiring := rfl
@[simp] theorem stageDm_stimulus (d : Word) (m : Memory) (s : State) : (stageDm d m s).stimulus = s.stimulus := rfl
@[simp] theorem stageDm_pending_alu (d : Word) (m : Memory) (s : State) :
    (stageDm d m s).pending.alu = s.pending.alu := rfl
@[simp] theorem stageDm_pending_se (d : Word) (m : Memory) (s : State) :
    (stageDm d m s).pending.se = s.pending.se := rfl
@[simp] theorem stageDm_pending_rf (d : Word) (m : Memory) (s : State) :
    (stageDm d m s).pending.rf = s.pending.rf := rfl
theorem stageDm_pending_dm (d : Word) (m : Memory) (s : State) :
    (stageDm d m s).pending.dm = { s.pending.dm with readData := d, storage := m } := rfl
@[simp] theorem stageDm_pending_dm_rstN (d : Word) (m : Memory) (s : State) :
    (stageDm d m s).pending.dm.rstN = s.pending.dm.rstN := rfl
@[simp] theorem stageDm_pending_dm_address (d : Word) (m : Memory) (s : State) :
    (stageDm d m s).pending.dm.address = s.pending.dm.address := rfl
@[simp] theorem stageDm_pending_dm_writeData (d : Word) (m : Memory) (s : State) :
    (stageDm d m s).pending.dm.writeData = s.pending.dm.writeData := rfl
@[simp] theorem stageDm_pending_dm_writeEnable (d : Word) (m : Memory) (s : State) :
    (stageDm d m s).pending.dm.writeEnable = s.pending.dm.writeEnable := rfl
@[simp] theorem stageDm_pending_dm_readData (d : Word) (m : Memory) (s : State) :
    (stageDm d m s).pending.dm.readData = d := rfl
@[simp] theorem stageDm_pending_dm_storage (d : Word) (m : Memory) (s : State) :
    (stageDm d m s).pending.dm.storage = m := rfl
@[simp] theorem stageDm_pending_ctrl (d : Word) (m : Memory) (s : State) :
    (stageDm d m s).pending.ctrl = s.pending.ctrl := rfl

/-! ### The two phases and the Inputs -/

@[simp] theorem restage_current (s : State) : (restage s).current = s.current := rfl
@[simp] theorem restage_pending (s : State) : (restage s).pending = s.current := rfl
@[simp] theorem restage_hasEvaluated (s : State) : (restage s).hasEvaluated = s.hasEvaluated := rfl
@[simp] theorem restage_wiring (s : State) : (restage s).wiring = s.wiring := rfl
@[simp] theorem restage_stimulus (s : State) : (restage s).stimulus = s.stimulus := rfl

@[simp] theorem commit_current (s : State) : (commit s).current = s.pending := rfl
@[simp] theorem commit_pending (s : State) : (commit s).pending = s.pending := rfl
@[simp] theorem commit_hasEvaluated (s : State) : (commit s).hasEvaluated = true := rfl
@[simp] theorem commit_wiring (s : State) : (commit s).wiring = s.wiring := rfl
@[simp] theorem commit_stimulus (s : State) : (commit s).stimulus = s.stimulus := rfl

@[simp] theorem assignInput_current (i : InputId) (v : Nat) (s : State) : (assignInput i v s).current = setInput i v s.current := rfl
@[simp] theorem assignInput_pending (i : InputId) (v : Nat) (s : State) : (assignInput i v s).pending = setInput i v s.pending := rfl
@[simp] theorem assignInput_hasEvaluated (i : InputId) (v : Nat) (s : State) : (assignInput i v s).hasEvaluated = s.hasEvaluated := rfl
@[simp] theorem assignInput_wiring (i : InputId) (v : Nat) (s : State) : (assignInput i v s).wiring = s.wiring := rfl
@[simp] theorem assignInput_stimulus (i : InputId) (v : Nat) (s : State) : (assignInput i v s).stimulus = s.stimulus := rfl

@[simp] theorem presentRow_current (r : StimulusRow) (s : State) : (presentRow r s).current = s.current := rfl
@[simp] theorem presentRow_pending (r : StimulusRow) (s : State) : (presentRow r s).pending = s.pending := rfl
@[simp] theorem presentRow_hasEvaluated (r : StimulusRow) (s : State) : (presentRow r s).hasEvaluated = s.hasEvaluated := rfl
@[simp] theorem presentRow_wiring (r : StimulusRow) (s : State) : (presentRow r s).wiring = s.wiring := rfl
@[simp] theorem presentRow_stimulus (r : StimulusRow) (s : State) : (presentRow r s).stimulus = r :: s.stimulus := rfl

/-! ### What assigning an Input leaves alone: every Output, every Local, both storages (spec/10_state.md R21) -/

@[simp] theorem setInput_alu_result (i : InputId) (v : Nat) (g : Signals) :
    (setInput i v g).alu.result = g.alu.result := by
  cases i <;> rfl
@[simp] theorem setInput_alu_zero (i : InputId) (v : Nat) (g : Signals) :
    (setInput i v g).alu.zero = g.alu.zero := by
  cases i <;> rfl
@[simp] theorem setInput_se_gatheredImm (i : InputId) (v : Nat) (g : Signals) :
    (setInput i v g).se.gatheredImm = g.se.gatheredImm := by
  cases i <;> rfl
@[simp] theorem setInput_se_immediate (i : InputId) (v : Nat) (g : Signals) :
    (setInput i v g).se.immediate = g.se.immediate := by
  cases i <;> rfl
@[simp] theorem setInput_rf_readData1 (i : InputId) (v : Nat) (g : Signals) :
    (setInput i v g).rf.readData1 = g.rf.readData1 := by
  cases i <;> rfl
@[simp] theorem setInput_rf_readData2 (i : InputId) (v : Nat) (g : Signals) :
    (setInput i v g).rf.readData2 = g.rf.readData2 := by
  cases i <;> rfl
@[simp] theorem setInput_rf_storage (i : InputId) (v : Nat) (g : Signals) :
    (setInput i v g).rf.storage = g.rf.storage := by
  cases i <;> rfl
@[simp] theorem setInput_dm_readData (i : InputId) (v : Nat) (g : Signals) :
    (setInput i v g).dm.readData = g.dm.readData := by
  cases i <;> rfl
@[simp] theorem setInput_dm_storage (i : InputId) (v : Nat) (g : Signals) :
    (setInput i v g).dm.storage = g.dm.storage := by
  cases i <;> rfl
@[simp] theorem setInput_ctrl_controlOp (i : InputId) (v : Nat) (g : Signals) :
    (setInput i v g).ctrl.controlOp = g.ctrl.controlOp := by
  cases i <;> rfl
@[simp] theorem setInput_ctrl_aluControl (i : InputId) (v : Nat) (g : Signals) :
    (setInput i v g).ctrl.aluControl = g.ctrl.aluControl := by
  cases i <;> rfl
@[simp] theorem setInput_ctrl_immSource (i : InputId) (v : Nat) (g : Signals) :
    (setInput i v g).ctrl.immSource = g.ctrl.immSource := by
  cases i <;> rfl
@[simp] theorem setInput_ctrl_memWrite (i : InputId) (v : Nat) (g : Signals) :
    (setInput i v g).ctrl.memWrite = g.ctrl.memWrite := by
  cases i <;> rfl
@[simp] theorem setInput_ctrl_regWrite (i : InputId) (v : Nat) (g : Signals) :
    (setInput i v g).ctrl.regWrite = g.ctrl.regWrite := by
  cases i <;> rfl

@[simp] theorem readOutput_setInput (o : OutputId) (i : InputId) (v : Nat) (g : Signals) :
    readOutput o (setInput i v g) = readOutput o g := by
  cases o <;> simp [readOutput]

/-! ### Going on after a part of a cycle -/

@[simp] theorem andThen_next (s : State) (f : State → Host.Outcome State Fault Refusal) :
    andThen (.next s) f = f s := rfl
@[simp] theorem andThen_fault (r : Fault) (f : State → Host.Outcome State Fault Refusal) :
    andThen (.fault r) f = .fault r := rfl
@[simp] theorem andThen_refused (r : Refusal) (f : State → Host.Outcome State Fault Refusal) :
    andThen (.refused r) f = .refused r := rfl

/-- From a next state of two parts, the state between them. -/
theorem andThen_eq_next {o : Host.Outcome State Fault Refusal} {f : State → Host.Outcome State Fault Refusal} {t : State}
    (h : andThen o f = .next t) : ∃ u, o = .next u ∧ f u = .next t := by
  cases o with
  | next u => exact ⟨u, rfl, h⟩
  | fault r => cases h
  | refused r => cases h

end Sys2Proof.Machine
end

