-- ==== Sys2Proof/Laws/Connections.lean ====
section
/-! SUPPORT. Laws/Connections.lean: a connection changes the one Input it drives and nothing else
(spec/40_update_engine.md R125, R132; spec/46_composition.md R240, R241, R245): one lemma per connection for its consumer
block, one per block for the connections of other consumers. -/

namespace Sys2Proof.Machine

/-- The block whose Input a connection drives. -/
@[simp, reducible] def targetBlock : Connection → Block
  | .aluControl => .alu
  | .immSrc => .signExtension
  | .memWrite => .dataMemory
  | .regWrite => .registerFile
  | .aluZero => .controller
  | .src1 => .alu
  | .src2 => .alu
  | .address => .dataMemory
  | .dmWriteData => .dataMemory
  | .rfWriteData => .registerFile

/-! ### `copyDirect` -/

@[simp] theorem copyDirect_wiring (c : Connection) (s : State) : (copyDirect c s).wiring = s.wiring := by
  unfold copyDirect; split <;> rfl
@[simp] theorem copyDirect_hasEvaluated (c : Connection) (s : State) : (copyDirect c s).hasEvaluated = s.hasEvaluated := by
  unfold copyDirect; split <;> rfl
@[simp] theorem copyDirect_stimulus (c : Connection) (s : State) : (copyDirect c s).stimulus = s.stimulus := by
  unfold copyDirect; split <;> rfl

@[simp] theorem copyDirect_current_alu (c : Connection) (s : State) (h : targetBlock c ≠ .alu) :
    (copyDirect c s).current.alu = s.current.alu := by
  unfold copyDirect; split <;> cases c <;> first | rfl | simp at h
@[simp] theorem copyDirect_current_se (c : Connection) (s : State) (h : targetBlock c ≠ .signExtension) :
    (copyDirect c s).current.se = s.current.se := by
  unfold copyDirect; split <;> cases c <;> first | rfl | simp at h
@[simp] theorem copyDirect_current_rf (c : Connection) (s : State) (h : targetBlock c ≠ .registerFile) :
    (copyDirect c s).current.rf = s.current.rf := by
  unfold copyDirect; split <;> cases c <;> first | rfl | simp at h
@[simp] theorem copyDirect_current_dm (c : Connection) (s : State) (h : targetBlock c ≠ .dataMemory) :
    (copyDirect c s).current.dm = s.current.dm := by
  unfold copyDirect; split <;> cases c <;> first | rfl | simp at h
@[simp] theorem copyDirect_current_ctrl (c : Connection) (s : State) (h : targetBlock c ≠ .controller) :
    (copyDirect c s).current.ctrl = s.current.ctrl := by
  unfold copyDirect; split <;> cases c <;> first | rfl | simp at h
@[simp] theorem copyDirect_pending_alu (c : Connection) (s : State) (h : targetBlock c ≠ .alu) :
    (copyDirect c s).pending.alu = s.pending.alu := by
  unfold copyDirect; split <;> cases c <;> first | rfl | simp at h
@[simp] theorem copyDirect_pending_se (c : Connection) (s : State) (h : targetBlock c ≠ .signExtension) :
    (copyDirect c s).pending.se = s.pending.se := by
  unfold copyDirect; split <;> cases c <;> first | rfl | simp at h
@[simp] theorem copyDirect_pending_rf (c : Connection) (s : State) (h : targetBlock c ≠ .registerFile) :
    (copyDirect c s).pending.rf = s.pending.rf := by
  unfold copyDirect; split <;> cases c <;> first | rfl | simp at h
@[simp] theorem copyDirect_pending_dm (c : Connection) (s : State) (h : targetBlock c ≠ .dataMemory) :
    (copyDirect c s).pending.dm = s.pending.dm := by
  unfold copyDirect; split <;> cases c <;> first | rfl | simp at h
@[simp] theorem copyDirect_pending_ctrl (c : Connection) (s : State) (h : targetBlock c ≠ .controller) :
    (copyDirect c s).pending.ctrl = s.pending.ctrl := by
  unfold copyDirect; split <;> cases c <;> first | rfl | simp at h

@[simp] theorem copyDirect_aluControl_current (s : State) :
    (copyDirect .aluControl s).current.alu = { s.current.alu with
      aluControl := if s.wiring.aluControl = .direct then s.pending.ctrl.aluControl else s.current.alu.aluControl } := by
  unfold copyDirect; cases h : s.wiring.aluControl <;> simp [linkOf, h, target, source, readOutput, setInput]
@[simp] theorem copyDirect_aluControl_pending (s : State) :
    (copyDirect .aluControl s).pending.alu = { s.pending.alu with
      aluControl := if s.wiring.aluControl = .direct then s.pending.ctrl.aluControl else s.pending.alu.aluControl } := by
  unfold copyDirect; cases h : s.wiring.aluControl <;> simp [linkOf, h, target, source, readOutput, setInput]
@[simp] theorem copyDirect_immSrc_current (s : State) :
    (copyDirect .immSrc s).current.se = { s.current.se with
      immSrc := if s.wiring.immSrc = .direct then s.pending.ctrl.immSource else s.current.se.immSrc } := by
  unfold copyDirect; cases h : s.wiring.immSrc <;> simp [linkOf, h, target, source, readOutput, setInput]
@[simp] theorem copyDirect_immSrc_pending (s : State) :
    (copyDirect .immSrc s).pending.se = { s.pending.se with
      immSrc := if s.wiring.immSrc = .direct then s.pending.ctrl.immSource else s.pending.se.immSrc } := by
  unfold copyDirect; cases h : s.wiring.immSrc <;> simp [linkOf, h, target, source, readOutput, setInput]
@[simp] theorem copyDirect_memWrite_current (s : State) :
    (copyDirect .memWrite s).current.dm = { s.current.dm with
      writeEnable := if s.wiring.memWrite = .direct then s.pending.ctrl.memWrite else s.current.dm.writeEnable } := by
  unfold copyDirect; cases h : s.wiring.memWrite <;> simp [linkOf, h, target, source, readOutput, setInput]
@[simp] theorem copyDirect_memWrite_pending (s : State) :
    (copyDirect .memWrite s).pending.dm = { s.pending.dm with
      writeEnable := if s.wiring.memWrite = .direct then s.pending.ctrl.memWrite else s.pending.dm.writeEnable } := by
  unfold copyDirect; cases h : s.wiring.memWrite <;> simp [linkOf, h, target, source, readOutput, setInput]
@[simp] theorem copyDirect_regWrite_current (s : State) :
    (copyDirect .regWrite s).current.rf = { s.current.rf with
      writeEnable := if s.wiring.regWrite = .direct then s.pending.ctrl.regWrite else s.current.rf.writeEnable } := by
  unfold copyDirect; cases h : s.wiring.regWrite <;> simp [linkOf, h, target, source, readOutput, setInput]
@[simp] theorem copyDirect_regWrite_pending (s : State) :
    (copyDirect .regWrite s).pending.rf = { s.pending.rf with
      writeEnable := if s.wiring.regWrite = .direct then s.pending.ctrl.regWrite else s.pending.rf.writeEnable } := by
  unfold copyDirect; cases h : s.wiring.regWrite <;> simp [linkOf, h, target, source, readOutput, setInput]
@[simp] theorem copyDirect_aluZero_current (s : State) :
    (copyDirect .aluZero s).current.ctrl = { s.current.ctrl with
      aluZero := if s.wiring.aluZero = .direct then s.pending.alu.zero else s.current.ctrl.aluZero } := by
  unfold copyDirect; cases h : s.wiring.aluZero <;> simp [linkOf, h, target, source, readOutput, setInput]
@[simp] theorem copyDirect_aluZero_pending (s : State) :
    (copyDirect .aluZero s).pending.ctrl = { s.pending.ctrl with
      aluZero := if s.wiring.aluZero = .direct then s.pending.alu.zero else s.pending.ctrl.aluZero } := by
  unfold copyDirect; cases h : s.wiring.aluZero <;> simp [linkOf, h, target, source, readOutput, setInput]
@[simp] theorem copyDirect_src1_current (s : State) :
    (copyDirect .src1 s).current.alu = { s.current.alu with
      src1 := if s.wiring.src1 = .direct then s.pending.rf.readData1 else s.current.alu.src1 } := by
  unfold copyDirect; cases h : s.wiring.src1 <;> simp [linkOf, h, target, source, readOutput, setInput]
@[simp] theorem copyDirect_src1_pending (s : State) :
    (copyDirect .src1 s).pending.alu = { s.pending.alu with
      src1 := if s.wiring.src1 = .direct then s.pending.rf.readData1 else s.pending.alu.src1 } := by
  unfold copyDirect; cases h : s.wiring.src1 <;> simp [linkOf, h, target, source, readOutput, setInput]
@[simp] theorem copyDirect_src2_current (s : State) :
    (copyDirect .src2 s).current.alu = { s.current.alu with
      src2 := if s.wiring.src2 = .direct then s.pending.se.immediate else s.current.alu.src2 } := by
  unfold copyDirect; cases h : s.wiring.src2 <;> simp [linkOf, h, target, source, readOutput, setInput]
@[simp] theorem copyDirect_src2_pending (s : State) :
    (copyDirect .src2 s).pending.alu = { s.pending.alu with
      src2 := if s.wiring.src2 = .direct then s.pending.se.immediate else s.pending.alu.src2 } := by
  unfold copyDirect; cases h : s.wiring.src2 <;> simp [linkOf, h, target, source, readOutput, setInput]
@[simp] theorem copyDirect_address_current (s : State) :
    (copyDirect .address s).current.dm = { s.current.dm with
      address := if s.wiring.address = .direct then s.pending.alu.result else s.current.dm.address } := by
  unfold copyDirect; cases h : s.wiring.address <;> simp [linkOf, h, target, source, readOutput, setInput]
@[simp] theorem copyDirect_address_pending (s : State) :
    (copyDirect .address s).pending.dm = { s.pending.dm with
      address := if s.wiring.address = .direct then s.pending.alu.result else s.pending.dm.address } := by
  unfold copyDirect; cases h : s.wiring.address <;> simp [linkOf, h, target, source, readOutput, setInput]
@[simp] theorem copyDirect_dmWriteData_current (s : State) :
    (copyDirect .dmWriteData s).current.dm = { s.current.dm with
      writeData := if s.wiring.dmWriteData = .direct then s.pending.rf.readData2 else s.current.dm.writeData } := by
  unfold copyDirect; cases h : s.wiring.dmWriteData <;> simp [linkOf, h, target, source, readOutput, setInput]
@[simp] theorem copyDirect_dmWriteData_pending (s : State) :
    (copyDirect .dmWriteData s).pending.dm = { s.pending.dm with
      writeData := if s.wiring.dmWriteData = .direct then s.pending.rf.readData2 else s.pending.dm.writeData } := by
  unfold copyDirect; cases h : s.wiring.dmWriteData <;> simp [linkOf, h, target, source, readOutput, setInput]
@[simp] theorem copyDirect_rfWriteData_current (s : State) :
    (copyDirect .rfWriteData s).current.rf = { s.current.rf with
      writeData := if s.wiring.rfWriteData = .direct then s.pending.dm.readData else s.current.rf.writeData } := by
  unfold copyDirect; cases h : s.wiring.rfWriteData <;> simp [linkOf, h, target, source, readOutput, setInput]
@[simp] theorem copyDirect_rfWriteData_pending (s : State) :
    (copyDirect .rfWriteData s).pending.rf = { s.pending.rf with
      writeData := if s.wiring.rfWriteData = .direct then s.pending.dm.readData else s.pending.rf.writeData } := by
  unfold copyDirect; cases h : s.wiring.rfWriteData <;> simp [linkOf, h, target, source, readOutput, setInput]

/-! ### `copyRegistered` -/

@[simp] theorem copyRegistered_wiring (c : Connection) (s : State) : (copyRegistered c s).wiring = s.wiring := by
  unfold copyRegistered; split <;> (try split) <;> rfl
@[simp] theorem copyRegistered_hasEvaluated (c : Connection) (s : State) : (copyRegistered c s).hasEvaluated = s.hasEvaluated := by
  unfold copyRegistered; split <;> (try split) <;> rfl
@[simp] theorem copyRegistered_stimulus (c : Connection) (s : State) : (copyRegistered c s).stimulus = s.stimulus := by
  unfold copyRegistered; split <;> (try split) <;> rfl

@[simp] theorem copyRegistered_current_alu (c : Connection) (s : State) (h : targetBlock c ≠ .alu) :
    (copyRegistered c s).current.alu = s.current.alu := by
  unfold copyRegistered; split <;> (try split) <;> cases c <;> first | rfl | simp at h
@[simp] theorem copyRegistered_current_se (c : Connection) (s : State) (h : targetBlock c ≠ .signExtension) :
    (copyRegistered c s).current.se = s.current.se := by
  unfold copyRegistered; split <;> (try split) <;> cases c <;> first | rfl | simp at h
@[simp] theorem copyRegistered_current_rf (c : Connection) (s : State) (h : targetBlock c ≠ .registerFile) :
    (copyRegistered c s).current.rf = s.current.rf := by
  unfold copyRegistered; split <;> (try split) <;> cases c <;> first | rfl | simp at h
@[simp] theorem copyRegistered_current_dm (c : Connection) (s : State) (h : targetBlock c ≠ .dataMemory) :
    (copyRegistered c s).current.dm = s.current.dm := by
  unfold copyRegistered; split <;> (try split) <;> cases c <;> first | rfl | simp at h
@[simp] theorem copyRegistered_current_ctrl (c : Connection) (s : State) (h : targetBlock c ≠ .controller) :
    (copyRegistered c s).current.ctrl = s.current.ctrl := by
  unfold copyRegistered; split <;> (try split) <;> cases c <;> first | rfl | simp at h
@[simp] theorem copyRegistered_pending_alu (c : Connection) (s : State) (h : targetBlock c ≠ .alu) :
    (copyRegistered c s).pending.alu = s.pending.alu := by
  unfold copyRegistered; split <;> (try split) <;> cases c <;> first | rfl | simp at h
@[simp] theorem copyRegistered_pending_se (c : Connection) (s : State) (h : targetBlock c ≠ .signExtension) :
    (copyRegistered c s).pending.se = s.pending.se := by
  unfold copyRegistered; split <;> (try split) <;> cases c <;> first | rfl | simp at h
@[simp] theorem copyRegistered_pending_rf (c : Connection) (s : State) (h : targetBlock c ≠ .registerFile) :
    (copyRegistered c s).pending.rf = s.pending.rf := by
  unfold copyRegistered; split <;> (try split) <;> cases c <;> first | rfl | simp at h
@[simp] theorem copyRegistered_pending_dm (c : Connection) (s : State) (h : targetBlock c ≠ .dataMemory) :
    (copyRegistered c s).pending.dm = s.pending.dm := by
  unfold copyRegistered; split <;> (try split) <;> cases c <;> first | rfl | simp at h
@[simp] theorem copyRegistered_pending_ctrl (c : Connection) (s : State) (h : targetBlock c ≠ .controller) :
    (copyRegistered c s).pending.ctrl = s.pending.ctrl := by
  unfold copyRegistered; split <;> (try split) <;> cases c <;> first | rfl | simp at h

@[simp] theorem copyRegistered_aluControl_current (s : State) :
    (copyRegistered .aluControl s).current.alu = { s.current.alu with
      aluControl := if s.wiring.aluControl = .registered ∧ s.hasEvaluated = true then s.current.ctrl.aluControl else s.current.alu.aluControl } := by
  unfold copyRegistered; cases s.hasEvaluated <;> cases h : s.wiring.aluControl <;> simp [linkOf, h, target, source, readOutput, setInput]
@[simp] theorem copyRegistered_aluControl_pending (s : State) :
    (copyRegistered .aluControl s).pending.alu = { s.pending.alu with
      aluControl := if s.wiring.aluControl = .registered ∧ s.hasEvaluated = true then s.current.ctrl.aluControl else s.pending.alu.aluControl } := by
  unfold copyRegistered; cases s.hasEvaluated <;> cases h : s.wiring.aluControl <;> simp [linkOf, h, target, source, readOutput, setInput]
@[simp] theorem copyRegistered_immSrc_current (s : State) :
    (copyRegistered .immSrc s).current.se = { s.current.se with
      immSrc := if s.wiring.immSrc = .registered ∧ s.hasEvaluated = true then s.current.ctrl.immSource else s.current.se.immSrc } := by
  unfold copyRegistered; cases s.hasEvaluated <;> cases h : s.wiring.immSrc <;> simp [linkOf, h, target, source, readOutput, setInput]
@[simp] theorem copyRegistered_immSrc_pending (s : State) :
    (copyRegistered .immSrc s).pending.se = { s.pending.se with
      immSrc := if s.wiring.immSrc = .registered ∧ s.hasEvaluated = true then s.current.ctrl.immSource else s.pending.se.immSrc } := by
  unfold copyRegistered; cases s.hasEvaluated <;> cases h : s.wiring.immSrc <;> simp [linkOf, h, target, source, readOutput, setInput]
@[simp] theorem copyRegistered_memWrite_current (s : State) :
    (copyRegistered .memWrite s).current.dm = { s.current.dm with
      writeEnable := if s.wiring.memWrite = .registered ∧ s.hasEvaluated = true then s.current.ctrl.memWrite else s.current.dm.writeEnable } := by
  unfold copyRegistered; cases s.hasEvaluated <;> cases h : s.wiring.memWrite <;> simp [linkOf, h, target, source, readOutput, setInput]
@[simp] theorem copyRegistered_memWrite_pending (s : State) :
    (copyRegistered .memWrite s).pending.dm = { s.pending.dm with
      writeEnable := if s.wiring.memWrite = .registered ∧ s.hasEvaluated = true then s.current.ctrl.memWrite else s.pending.dm.writeEnable } := by
  unfold copyRegistered; cases s.hasEvaluated <;> cases h : s.wiring.memWrite <;> simp [linkOf, h, target, source, readOutput, setInput]
@[simp] theorem copyRegistered_regWrite_current (s : State) :
    (copyRegistered .regWrite s).current.rf = { s.current.rf with
      writeEnable := if s.wiring.regWrite = .registered ∧ s.hasEvaluated = true then s.current.ctrl.regWrite else s.current.rf.writeEnable } := by
  unfold copyRegistered; cases s.hasEvaluated <;> cases h : s.wiring.regWrite <;> simp [linkOf, h, target, source, readOutput, setInput]
@[simp] theorem copyRegistered_regWrite_pending (s : State) :
    (copyRegistered .regWrite s).pending.rf = { s.pending.rf with
      writeEnable := if s.wiring.regWrite = .registered ∧ s.hasEvaluated = true then s.current.ctrl.regWrite else s.pending.rf.writeEnable } := by
  unfold copyRegistered; cases s.hasEvaluated <;> cases h : s.wiring.regWrite <;> simp [linkOf, h, target, source, readOutput, setInput]
@[simp] theorem copyRegistered_aluZero_current (s : State) :
    (copyRegistered .aluZero s).current.ctrl = { s.current.ctrl with
      aluZero := if s.wiring.aluZero = .registered ∧ s.hasEvaluated = true then s.current.alu.zero else s.current.ctrl.aluZero } := by
  unfold copyRegistered; cases s.hasEvaluated <;> cases h : s.wiring.aluZero <;> simp [linkOf, h, target, source, readOutput, setInput]
@[simp] theorem copyRegistered_aluZero_pending (s : State) :
    (copyRegistered .aluZero s).pending.ctrl = { s.pending.ctrl with
      aluZero := if s.wiring.aluZero = .registered ∧ s.hasEvaluated = true then s.current.alu.zero else s.pending.ctrl.aluZero } := by
  unfold copyRegistered; cases s.hasEvaluated <;> cases h : s.wiring.aluZero <;> simp [linkOf, h, target, source, readOutput, setInput]
@[simp] theorem copyRegistered_src1_current (s : State) :
    (copyRegistered .src1 s).current.alu = { s.current.alu with
      src1 := if s.wiring.src1 = .registered ∧ s.hasEvaluated = true then s.current.rf.readData1 else s.current.alu.src1 } := by
  unfold copyRegistered; cases s.hasEvaluated <;> cases h : s.wiring.src1 <;> simp [linkOf, h, target, source, readOutput, setInput]
@[simp] theorem copyRegistered_src1_pending (s : State) :
    (copyRegistered .src1 s).pending.alu = { s.pending.alu with
      src1 := if s.wiring.src1 = .registered ∧ s.hasEvaluated = true then s.current.rf.readData1 else s.pending.alu.src1 } := by
  unfold copyRegistered; cases s.hasEvaluated <;> cases h : s.wiring.src1 <;> simp [linkOf, h, target, source, readOutput, setInput]
@[simp] theorem copyRegistered_src2_current (s : State) :
    (copyRegistered .src2 s).current.alu = { s.current.alu with
      src2 := if s.wiring.src2 = .registered ∧ s.hasEvaluated = true then s.current.se.immediate else s.current.alu.src2 } := by
  unfold copyRegistered; cases s.hasEvaluated <;> cases h : s.wiring.src2 <;> simp [linkOf, h, target, source, readOutput, setInput]
@[simp] theorem copyRegistered_src2_pending (s : State) :
    (copyRegistered .src2 s).pending.alu = { s.pending.alu with
      src2 := if s.wiring.src2 = .registered ∧ s.hasEvaluated = true then s.current.se.immediate else s.pending.alu.src2 } := by
  unfold copyRegistered; cases s.hasEvaluated <;> cases h : s.wiring.src2 <;> simp [linkOf, h, target, source, readOutput, setInput]
@[simp] theorem copyRegistered_address_current (s : State) :
    (copyRegistered .address s).current.dm = { s.current.dm with
      address := if s.wiring.address = .registered ∧ s.hasEvaluated = true then s.current.alu.result else s.current.dm.address } := by
  unfold copyRegistered; cases s.hasEvaluated <;> cases h : s.wiring.address <;> simp [linkOf, h, target, source, readOutput, setInput]
@[simp] theorem copyRegistered_address_pending (s : State) :
    (copyRegistered .address s).pending.dm = { s.pending.dm with
      address := if s.wiring.address = .registered ∧ s.hasEvaluated = true then s.current.alu.result else s.pending.dm.address } := by
  unfold copyRegistered; cases s.hasEvaluated <;> cases h : s.wiring.address <;> simp [linkOf, h, target, source, readOutput, setInput]
@[simp] theorem copyRegistered_dmWriteData_current (s : State) :
    (copyRegistered .dmWriteData s).current.dm = { s.current.dm with
      writeData := if s.wiring.dmWriteData = .registered ∧ s.hasEvaluated = true then s.current.rf.readData2 else s.current.dm.writeData } := by
  unfold copyRegistered; cases s.hasEvaluated <;> cases h : s.wiring.dmWriteData <;> simp [linkOf, h, target, source, readOutput, setInput]
@[simp] theorem copyRegistered_dmWriteData_pending (s : State) :
    (copyRegistered .dmWriteData s).pending.dm = { s.pending.dm with
      writeData := if s.wiring.dmWriteData = .registered ∧ s.hasEvaluated = true then s.current.rf.readData2 else s.pending.dm.writeData } := by
  unfold copyRegistered; cases s.hasEvaluated <;> cases h : s.wiring.dmWriteData <;> simp [linkOf, h, target, source, readOutput, setInput]
@[simp] theorem copyRegistered_rfWriteData_current (s : State) :
    (copyRegistered .rfWriteData s).current.rf = { s.current.rf with
      writeData := if s.wiring.rfWriteData = .registered ∧ s.hasEvaluated = true then s.current.dm.readData else s.current.rf.writeData } := by
  unfold copyRegistered; cases s.hasEvaluated <;> cases h : s.wiring.rfWriteData <;> simp [linkOf, h, target, source, readOutput, setInput]
@[simp] theorem copyRegistered_rfWriteData_pending (s : State) :
    (copyRegistered .rfWriteData s).pending.rf = { s.pending.rf with
      writeData := if s.wiring.rfWriteData = .registered ∧ s.hasEvaluated = true then s.current.dm.readData else s.pending.rf.writeData } := by
  unfold copyRegistered; cases s.hasEvaluated <;> cases h : s.wiring.rfWriteData <;> simp [linkOf, h, target, source, readOutput, setInput]

end Sys2Proof.Machine
end

