-- ==== Sys2Proof/Laws/Memory.lean ====
section
/-! SUPPORT. Laws/Memory.lean: what the memory operations do: read after write, and the canonical form they keep. -/

namespace Sys2Proof.Machine

@[simp] theorem Memory.lookup_cleared (w : Nat) : Memory.lookup Memory.cleared w = 0 := rfl

@[simp] theorem Memory.wf_cleared : Memory.wf Memory.cleared = true := rfl

/-- The canonical form from `lo` on, cell by cell. -/
theorem Memory.wfFrom_cons (lo k : Nat) (x : Word) (r : Memory) :
    Memory.wfFrom lo ((k, x) :: r) = true ↔
      lo ≤ k ∧ k < Config.memWords ∧ x ≠ 0#32 ∧ Memory.wfFrom (k + 1) r = true := by
  simp [Memory.wfFrom, and_assoc]

theorem Memory.wfFrom_le {lo lo' : Nat} {m : Memory} (h : Memory.wfFrom lo m = true) (hl : lo' ≤ lo) :
    Memory.wfFrom lo' m = true := by
  cases m with
  | nil => rfl
  | cons c r =>
    obtain ⟨k, x⟩ := c
    rw [Memory.wfFrom_cons] at h ⊢
    exact ⟨by omega, h.2⟩

/-- Below its first index a canonical memory lists nothing. -/
theorem Memory.lookup_below {lo w : Nat} {m : Memory} (h : Memory.wfFrom lo m = true) (hw : w < lo) :
    Memory.lookup m w = 0#32 := by
  induction m generalizing lo with
  | nil => rfl
  | cons c r ih =>
    obtain ⟨k, x⟩ := c
    rw [Memory.wfFrom_cons] at h
    have hk : k ≠ w := by omega
    simp only [Memory.lookup, hk, if_false]
    exact ih h.2.2.2 (by omega)

/-- Putting a cell before a memory that does not list its index. -/
theorem Memory.lookup_putCell {w : Nat} {r : Memory} (h : Memory.lookup r w = 0#32) (u : Nat) (v : Word) :
    Memory.lookup (Memory.putCell w v r) u = if u = w then v else Memory.lookup r u := by
  unfold Memory.putCell
  by_cases hv : v = 0#32
  · by_cases hu : u = w
    · rw [if_pos hv, if_pos hu, hu, h, hv]
    · rw [if_pos hv, if_neg hu]
  · by_cases hu : u = w
    · rw [if_neg hv, if_pos hu, Memory.lookup, if_pos hu.symm]
    · rw [if_neg hv, if_neg hu, Memory.lookup, if_neg (Ne.symm hu)]

theorem Memory.wfFrom_putCell {lo w : Nat} {r : Memory} (hlo : lo ≤ w) (hw : w < Config.memWords)
    (h : Memory.wfFrom (w + 1) r = true) (v : Word) : Memory.wfFrom lo (Memory.putCell w v r) = true := by
  unfold Memory.putCell
  by_cases hv : v = 0#32
  · rw [if_pos hv]
    exact Memory.wfFrom_le h (by omega)
  · rw [if_neg hv, Memory.wfFrom_cons]
    exact ⟨hlo, hw, hv, h⟩

/-- A store gives the word its new value and leaves every other word alone. -/
theorem Memory.lookup_store {lo : Nat} {m : Memory} (h : Memory.wfFrom lo m = true) (w u : Nat) (v : Word) :
    Memory.lookup (Memory.store m w v) u = if u = w then v else Memory.lookup m u := by
  induction m generalizing lo with
  | nil => exact Memory.lookup_putCell rfl u v
  | cons c r ih =>
    obtain ⟨k, x⟩ := c
    have hc := (Memory.wfFrom_cons lo k x r).1 h
    unfold Memory.store
    by_cases h1 : w < k
    · rw [if_pos h1]
      refine Memory.lookup_putCell (Memory.lookup_below (lo := k) ?_ h1) u v
      rw [Memory.wfFrom_cons]
      exact ⟨le_refl k, hc.2⟩
    · rw [if_neg h1]
      by_cases h2 : w = k
      · subst h2
        rw [if_pos rfl, Memory.lookup_putCell (Memory.lookup_below hc.2.2.2 (by omega))]
        by_cases hu : u = w
        · rw [if_pos hu, if_pos hu]
        · rw [if_neg hu, if_neg hu, Memory.lookup, if_neg (Ne.symm hu)]
      · rw [if_neg h2, Memory.lookup, Memory.lookup, ih hc.2.2.2]
        by_cases hk : k = u
        · rw [if_pos hk, if_pos hk, if_neg (by omega)]
        · rw [if_neg hk, if_neg hk]

/-- A store keeps the canonical form. -/
theorem Memory.wfFrom_store {lo : Nat} {m : Memory} (h : Memory.wfFrom lo m = true) {w : Nat} (hlo : lo ≤ w)
    (hw : w < Config.memWords) (v : Word) : Memory.wfFrom lo (Memory.store m w v) = true := by
  induction m generalizing lo with
  | nil => exact Memory.wfFrom_putCell hlo hw rfl v
  | cons c r ih =>
    obtain ⟨k, x⟩ := c
    have hc := (Memory.wfFrom_cons lo k x r).1 h
    unfold Memory.store
    by_cases h1 : w < k
    · rw [if_pos h1]
      refine Memory.wfFrom_putCell hlo hw ?_ v
      rw [Memory.wfFrom_cons]
      exact ⟨by omega, hc.2⟩
    · rw [if_neg h1]
      by_cases h2 : w = k
      · subst h2
        rw [if_pos rfl]
        exact Memory.wfFrom_putCell hlo hw hc.2.2.2 v
      · rw [if_neg h2, Memory.wfFrom_cons]
        exact ⟨hc.1, hc.2.1, hc.2.2.1, ih hc.2.2.2 (by omega)⟩

theorem Memory.wf_store {m : Memory} (h : Memory.wf m = true) {w : Nat} (hw : w < Config.memWords) (v : Word) :
    Memory.wf (Memory.store m w v) = true :=
  Memory.wfFrom_store h (Nat.zero_le w) hw v

/-- In canonical form, memories that hold the same words are the same list. -/
theorem Memory.wfFrom_ext {lo : Nat} {m m' : Memory} (h : Memory.wfFrom lo m = true) (h' : Memory.wfFrom lo m' = true)
    (he : ∀ w, Memory.lookup m w = Memory.lookup m' w) : m = m' := by
  induction m generalizing lo m' with
  | nil =>
    cases m' with
    | nil => rfl
    | cons c r =>
      obtain ⟨k, x⟩ := c
      rw [Memory.wfFrom_cons] at h'
      have := he k
      simp [Memory.lookup] at this
      exact absurd this.symm h'.2.2.1
  | cons c r ih =>
    obtain ⟨k, x⟩ := c
    have hc := (Memory.wfFrom_cons lo k x r).1 h
    cases m' with
    | nil =>
      have := he k
      simp [Memory.lookup] at this
      exact absurd this hc.2.2.1
    | cons c' r' =>
      obtain ⟨k', x'⟩ := c'
      have hc' := (Memory.wfFrom_cons lo k' x' r').1 h'
      have hk : k = k' := by
        rcases Nat.lt_trichotomy k k' with hlt | heq | hgt
        · have e := he k
          rw [Memory.lookup, if_pos rfl, Memory.lookup, if_neg (by omega),
            Memory.lookup_below hc'.2.2.2 (by omega)] at e
          exact absurd e hc.2.2.1
        · exact heq
        · have e := he k'
          rw [Memory.lookup, if_neg (by omega), Memory.lookup_below hc.2.2.2 (by omega), Memory.lookup,
            if_pos rfl] at e
          exact absurd e.symm hc'.2.2.1
      subst hk
      have hx : x = x' := by
        have e := he k
        simpa [Memory.lookup] using e
      subst hx
      congr 1
      refine ih hc.2.2.2 hc'.2.2.2 fun w => ?_
      by_cases hw : k = w
      · rw [Memory.lookup_below hc.2.2.2 (by omega), Memory.lookup_below hc'.2.2.2 (by omega)]
      · have e := he w
        simpa [Memory.lookup, hw] using e

/-- `MemRead` succeeds exactly on an address in range, and then gives the word the address selects. -/
theorem memRead_eq_ok {m : Memory} {a d : Word} :
    memRead m a = .ok d ↔ inRange a = true ∧ d = Memory.lookup m (wordIndex a) := by
  unfold memRead
  by_cases h : inRange a = true <;> simp [h, eq_comm]

theorem memRead_eq_error {m : Memory} {a : Word} {f : Fault} :
    memRead m a = .error f ↔ inRange a = false ∧ f = .addressOutOfRange a := by
  unfold memRead
  by_cases h : inRange a = true <;> simp [h, eq_comm]

/-- `inRange` is `address < 0x100` (R62). -/
theorem inRange_iff (a : Word) : inRange a = true ↔ a.toNat < Config.memBytes := by
  simp [inRange, wordIndex, Config.memWords, Config.memBytes, Nat.shiftRight_eq_div_pow]
  omega

/-- What `MemWrite` can do: nothing (misaligned), a store, or the failure. -/
theorem memWrite_cases (m : Memory) (a v : Word) :
    (wordAligned a = false ∧ memWrite m a v = .ok m) ∨
    (wordAligned a = true ∧ inRange a = true ∧ memWrite m a v = .ok (Memory.store m (wordIndex a) v)) ∨
    (wordAligned a = true ∧ inRange a = false ∧ memWrite m a v = .error (.addressOutOfRange a)) := by
  unfold memWrite
  cases wordAligned a <;> cases inRange a <;> simp

/-- What the Data Memory's clock edge can do, once the address is in range: clear, store or hold; it cannot fail. -/
theorem dmNext_inRange {g : DmSignals} (h : inRange g.address = true) :
    (g.rstN = 0#1 ∧ dmNext g = .ok Memory.cleared) ∨
    (g.rstN ≠ 0#1 ∧ g.writeEnable = 1#1 ∧ wordAligned g.address = true ∧
      dmNext g = .ok (Memory.store g.storage (wordIndex g.address) g.writeData)) ∨
    (g.rstN ≠ 0#1 ∧ (g.writeEnable ≠ 1#1 ∨ wordAligned g.address = false) ∧ dmNext g = .ok g.storage) := by
  unfold dmNext memWrite
  by_cases hr : g.rstN = 0#1
  · exact .inl ⟨hr, by simp [hr]⟩
  · by_cases hw : g.writeEnable = 1#1
    · by_cases ha : wordAligned g.address = true
      · exact .inr (.inl ⟨hr, hw, ha, by simp [hr, hw, ha, h]⟩)
      · exact .inr (.inr ⟨hr, .inr (by simpa using ha), by simp [hr, hw, ha]⟩)
    · exact .inr (.inr ⟨hr, .inl hw, by simp [hr, hw]⟩)

end Sys2Proof.Machine
end

