-- ==== Sys2Proof/Laws/RegisterFile.lean ====
section
/-! SUPPORT. Laws/RegisterFile.lean: what the register operations do: reads after writes, register 0, reset. -/

namespace Sys2Proof.Machine

/-- Index 0 reads 0 whatever the storage holds (R183). -/
@[simp] theorem rfRead_zero (rf : Vector Word Config.nregs) : rfRead rf 0#5 = 0x00000000#32 := rfl

/-- Any other index reads its word. -/
theorem rfRead_of_ne {a : RegIdx} (h : a ≠ 0#5) (rf : Vector Word Config.nregs) :
    rfRead rf a = rf[a.toNat]'(a.isLt) := if_neg h

@[simp] theorem rfRead_cleared (a : RegIdx) : rfRead rfCleared a = 0x00000000#32 := by
  unfold rfRead rfCleared
  split <;> simp

/-- A write to index 0 is refused (R190). -/
@[simp] theorem rfWrite_zero (rf : Vector Word Config.nregs) (v : Word) : rfWrite rf 0#5 v = rf := rfl

/-- A write gives its register the value and leaves every other register alone (R185). -/
theorem rfRead_rfWrite (rf : Vector Word Config.nregs) (a b : RegIdx) (v : Word) :
    rfRead (rfWrite rf a v) b = if b = a ∧ a ≠ 0#5 then v else rfRead rf b := by
  by_cases ha : a = 0#5
  · subst ha; simp
  · by_cases hb : b = 0#5
    · subst hb
      have : ¬ (0#5 = a ∧ a ≠ 0#5) := fun h => ha h.1.symm
      simp [this]
    · rw [rfRead_of_ne hb, rfRead_of_ne hb, rfWrite, if_neg ha, Vector.getElem_set]
      by_cases e : b = a
      · subst e; simp [ha]
      · have : a.toNat ≠ b.toNat := fun h => e (BitVec.eq_of_toNat_eq h).symm
        simp [this, e]

/-- No write reaches `rf[0]` (R46). -/
theorem rfWrite_storage_zero (rf : Vector Word Config.nregs) (a : RegIdx) (v : Word) :
    (rfWrite rf a v)[0] = rf[0] := by
  unfold rfWrite
  by_cases ha : a = 0#5
  · rw [if_pos ha]
  · have : a.toNat ≠ 0 := fun h => ha (BitVec.eq_of_toNat_eq h)
    rw [if_neg ha, Vector.getElem_set_ne _ _ this]

/-- What the Register File's clock edge can do: clear, write or hold. -/
theorem rfNext_cases (g : RfSignals) :
    (g.rstN = 0#1 ∧ rfNext g = rfCleared) ∨
    (g.rstN ≠ 0#1 ∧ g.writeEnable = 1#1 ∧ rfNext g = rfWrite g.storage g.address3 g.writeData) ∨
    (g.rstN ≠ 0#1 ∧ g.writeEnable ≠ 1#1 ∧ rfNext g = g.storage) := by
  unfold rfNext
  by_cases hr : g.rstN = 0#1 <;> by_cases hw : g.writeEnable = 1#1 <;> simp [hr, hw]

end Sys2Proof.Machine
end

