-- ==== Sys2Proof/Laws/Cycle.lean ====
section
/-! SUPPORT. Laws/Cycle.lean: what each block's update and what a whole cycle can do, said once: later proofs cite these and
unfold neither the rows nor the cycle. -/

namespace Sys2Proof.Machine

/-! ### The updates of the combinational blocks, as states -/

/-- What the second stage does, for every `control_op`: it stages `secondStageCode` of it (R225). -/
theorem secondStage_eq (c : CtrlCode) (s : State) : secondStage c s = .next (driveAluControl (secondStageCode c) s) := by
  unfold secondStage secondStageCode
  by_cases h : c = 0b00#2
  · rw [if_pos h, if_pos h]; rfl
  · rw [if_neg h, if_neg h]
    split
    · rfl
    · split <;> rfl

/-- What both stages do: the first stage's values and the second's of its `control_op` are staged (R222, R225). -/
theorem bothStages_eq (rw : Bit) (im : ImmCode) (mw : Bit) (co : CtrlCode) (s : State) :
    bothStages rw im mw co s = .next (driveAluControl (secondStageCode co) (driveFirstStage rw im mw co s)) :=
  secondStage_eq co _

/-- The state after the Controller's update: `reg_write` is 1 exactly for the load opcode, the rest is constant. -/
def controllerStaged (s : State) : State :=
  driveAluControl 0b000#3
    (driveFirstStage (if s.current.ctrl.op = Config.loadOpcode then 1#1 else 0#1) 0b00#2 0#1 0b00#2 s)

/-- The state after the Sign-Extension unit's update. -/
def immediateStaged (s : State) : State :=
  driveImmediate (gatherSE s.current.se.raw s.current.se.immSrc) s

/-- The state after the ALU's update. -/
def aluStaged (s : State) : State :=
  driveAlu (outALU s.current.alu.aluControl s.current.alu.src1 s.current.alu.src2).1 s

theorem updateBlock_controller (s : State) : updateBlock .controller s = .next (controllerStaged s) := by
  unfold updateBlock opRow decodeOp controllerStaged
  by_cases h : s.current.ctrl.op = Config.loadOpcode
  · rw [if_pos h, if_pos h]; rfl
  · rw [if_neg h, if_neg h]; rfl

theorem updateBlock_signExtension (s : State) : updateBlock .signExtension s = .next (immediateStaged s) := by
  unfold updateBlock immRow decodeImmSrc immediateStaged gatherSE
  by_cases h0 : s.current.se.immSrc = 0b00#2
  · rw [if_pos h0, if_pos h0]; rfl
  · rw [if_neg h0, if_neg h0]
    by_cases h1 : s.current.se.immSrc = 0b01#2
    · rw [if_pos h1]; rfl
    · rw [if_neg h1]
      by_cases h2 : s.current.se.immSrc = 0b10#2
      · rw [if_pos h2]; rfl
      · rw [if_neg h2]; rfl

/-- Whatever unassigned code the ALU reads, its row forces zero. -/
theorem exec_aluRow_of_ne {s : State} (h : s.current.alu.aluControl ≠ 0b000#3) :
    exec (aluRow s) s = .next (forceZero s) := by
  unfold aluRow decodeAluControl
  rw [if_neg h]
  repeat' split
  all_goals rfl

theorem updateBlock_alu (s : State) : updateBlock .alu s = .next (aluStaged s) := by
  by_cases h : s.current.alu.aluControl = 0b000#3
  · unfold updateBlock aluRow decodeAluControl aluStaged outALU
    rw [if_pos h, if_pos h]; rfl
  · have h' : aluStaged s = forceZero s := by
      unfold aluStaged outALU forceZero
      rw [if_neg h]
    rw [h']
    exact exec_aluRow_of_ne h

@[simp] theorem updateBlock_registerFile (s : State) :
    updateBlock .registerFile s = .next (rfStage (rfReadPorts s)) := rfl

/-- The Data Memory's update fails exactly on an address out of range. -/
theorem updateDataMemory_out_of_range {s : State} (h : inRange s.current.dm.address = false) :
    updateDataMemory s = .fault (.addressOutOfRange s.current.dm.address) := by
  unfold updateDataMemory
  rw [memRead_eq_error.2 ⟨h, rfl⟩]

/-- On an address in range the Data Memory's update answers the word read and the storage of its clock edge. -/
theorem updateDataMemory_in_range {s : State} (h : inRange s.current.dm.address = true) :
    ∃ m, dmNext s.current.dm = .ok m ∧
      updateDataMemory s =
        .next (stageDm (Memory.lookup s.current.dm.storage (wordIndex s.current.dm.address)) m s) := by
  unfold updateDataMemory
  rw [memRead_eq_ok.2 ⟨h, rfl⟩]
  rcases dmNext_inRange h with ⟨-, hm⟩ | ⟨-, -, -, hm⟩ | ⟨-, -, hm⟩ <;> rw [hm] <;> exact ⟨_, rfl, rfl⟩

/-! ### The evaluation, stage by stage -/

/-- After the Controller. -/
def afterController (s : State) : State := controllerStaged (copyAllRegistered s)

/-- After the Sign-Extension unit and the Register File's read ports. -/
def afterReadPorts (s : State) : State :=
  rfReadPorts (immediateStaged (copyDirects [.immSrc] (afterController s)))

/-- Before the Data Memory: the ALU is evaluated and its address connection copied. -/
def beforeDataMemory (s : State) : State :=
  copyDirects [.aluZero, .memWrite, .address, .dmWriteData]
    (aluStaged (copyDirects [.aluControl, .src1, .src2] (afterReadPorts s)))

theorem evaluate_eq (s : State) :
    evaluate s = andThen (updateDataMemory (beforeDataMemory s)) fun d =>
      .next (rfStage (copyDirects [.regWrite, .rfWriteData] d)) := by
  unfold evaluate
  simp only [updateBlock_controller, updateBlock_signExtension, updateBlock_alu, andThen_next]
  rfl

/-- The state a completing cycle commits. -/
def evaluated (s : State) (m : Memory) : State :=
  rfStage (copyDirects [.regWrite, .rfWriteData]
    (stageDm (Memory.lookup (beforeDataMemory s).current.dm.storage (wordIndex (beforeDataMemory s).current.dm.address)) m
      (beforeDataMemory s)))

/-- A cycle fails exactly when the Data Memory's address, once the connections have settled, is out of range. -/
theorem cycle_out_of_range {s : State} (h : inRange (beforeDataMemory (restage s)).current.dm.address = false) :
    cycle s = .fault (.addressOutOfRange (beforeDataMemory (restage s)).current.dm.address) := by
  unfold cycle
  rw [evaluate_eq, updateDataMemory_out_of_range h]
  rfl

/-- Otherwise it commits the evaluated state. -/
theorem cycle_in_range {s : State} (h : inRange (beforeDataMemory (restage s)).current.dm.address = true) :
    ∃ m, dmNext (beforeDataMemory (restage s)).current.dm = .ok m ∧ cycle s = .next (commit (evaluated (restage s) m)) := by
  obtain ⟨m, hm, hu⟩ := updateDataMemory_in_range h
  refine ⟨m, hm, ?_⟩
  unfold cycle
  rw [evaluate_eq, hu]
  rfl

/-- What a cycle can do, once. -/
theorem cycle_cases (s : State) :
    (inRange (beforeDataMemory (restage s)).current.dm.address = false ∧
      cycle s = .fault (.addressOutOfRange (beforeDataMemory (restage s)).current.dm.address)) ∨
    (inRange (beforeDataMemory (restage s)).current.dm.address = true ∧
      ∃ m, dmNext (beforeDataMemory (restage s)).current.dm = .ok m ∧
        cycle s = .next (commit (evaluated (restage s) m))) := by
  cases h : inRange (beforeDataMemory (restage s)).current.dm.address
  · exact .inl ⟨rfl, cycle_out_of_range h⟩
  · exact .inr ⟨rfl, cycle_in_range h⟩

/-- A next state of a cycle is the commit of the evaluated state. -/
theorem cycle_eq_next {s t : State} (h : cycle s = .next t) :
    inRange (beforeDataMemory (restage s)).current.dm.address = true ∧
      ∃ m, dmNext (beforeDataMemory (restage s)).current.dm = .ok m ∧ t = commit (evaluated (restage s) m) := by
  rcases cycle_cases s with ⟨-, hf⟩ | ⟨hr, m, hm, hn⟩
  · rw [hf] at h; cases h
  · rw [hn] at h
    exact ⟨hr, m, hm, (Host.Outcome.next.inj h).symm⟩

/-! ### Taking a stimulus row -/

/-- Two states that agree on everything but Inputs and rows: every Output, Local and storage word, and the wiring. -/
structure InputsOnly (s t : State) : Prop where
  wiring : t.wiring = s.wiring
  hasEvaluated : t.hasEvaluated = s.hasEvaluated
  outputs : ∀ o, readOutput o t.current = readOutput o s.current
  gatheredImm : t.current.se.gatheredImm = s.current.se.gatheredImm
  controlOp : t.current.ctrl.controlOp = s.current.ctrl.controlOp
  rf : t.current.rf.storage = s.current.rf.storage
  dm : t.current.dm.storage = s.current.dm.storage

theorem InputsOnly.refl (s : State) : InputsOnly s s := ⟨rfl, rfl, fun _ => rfl, rfl, rfl, rfl, rfl⟩

theorem InputsOnly.trans {s t u : State} (h : InputsOnly s t) (k : InputsOnly t u) : InputsOnly s u :=
  ⟨k.wiring.trans h.wiring, k.hasEvaluated.trans h.hasEvaluated, fun o => (k.outputs o).trans (h.outputs o), k.gatheredImm.trans h.gatheredImm,
    k.controlOp.trans h.controlOp, k.rf.trans h.rf, k.dm.trans h.dm⟩

theorem inputsOnly_assignInput (i : InputId) (v : Nat) (s : State) : InputsOnly s (assignInput i v s) :=
  ⟨rfl, rfl, fun o => by simp, by simp, by simp, by simp, by simp⟩

/-- What an offer can do. -/
theorem offer_cases (i : InputId) (v : Nat) (s : State) :
    (v < 2 ^ inputWidth i ∧ offer i v s = .next (assignInput i v s)) ∨
    (2 ^ inputWidth i ≤ v ∧ offer i v s = .fault (.widthOverflow i v)) := by
  unfold offer
  by_cases h : v < 2 ^ inputWidth i
  · exact .inl ⟨h, if_pos h⟩
  · exact .inr ⟨by omega, if_neg h⟩

theorem offerRow_stimulus {row : StimulusRow} {s u : State} (h : offerRow row s = .next u) :
    u.stimulus = s.stimulus := by
  induction row generalizing s with
  | nil => cases h; rfl
  | cons p r ih =>
    obtain ⟨i, v⟩ := p
    obtain ⟨a, ha, hu⟩ := andThen_eq_next (show andThen (offer i v s) (offerRow r) = .next u from h)
    rcases offer_cases i v s with ⟨-, e⟩ | ⟨-, e⟩ <;> rw [e] at ha <;> cases ha
    rw [ih hu]; rfl

theorem inputsOnly_offerRow {row : StimulusRow} {s u : State} (h : offerRow row s = .next u) : InputsOnly s u := by
  induction row generalizing s with
  | nil => cases h; exact .refl _
  | cons p r ih =>
    obtain ⟨i, v⟩ := p
    obtain ⟨a, ha, hu⟩ := andThen_eq_next (show andThen (offer i v s) (offerRow r) = .next u from h)
    rcases offer_cases i v s with ⟨-, e⟩ | ⟨-, e⟩ <;> rw [e] at ha <;> cases ha
    exact (inputsOnly_assignInput i v s).trans (ih hu)

/-- `alu_zero` does not decide what the reference datapath is (R250). -/
@[simp] theorem isReference_aluZero (w : Wiring) (l : Link) : isReference { w with aluZero := l } = isReference w := rfl

@[simp] theorem isReference_reference : isReference Wiring.reference = true := rfl

@[simp] theorem isReference_standAlone : isReference Wiring.standAlone = false := rfl

/-- The reference datapath's run ends with its last row (R252). -/
theorem takeStimulus_endOfRun {s : State} (hw : isReference s.wiring = true) (hs : s.stimulus = []) :
    takeStimulus s = .refused .endOfRun := by
  unfold takeStimulus
  rw [hs]
  exact if_pos hw

/-- Any other composition goes on with the Inputs it has (R299). -/
theorem takeStimulus_held {s : State} (hw : isReference s.wiring = false) (hs : s.stimulus = []) :
    takeStimulus s = .next s := by
  unfold takeStimulus
  rw [hs]
  exact if_neg (by simp [hw])

/-- A row is offered and never refused. -/
theorem offerRow_ne_refused (row : StimulusRow) (s : State) (r : Refusal) : offerRow row s ≠ .refused r := by
  induction row generalizing s with
  | nil => nofun
  | cons p row ih =>
    obtain ⟨i, v⟩ := p
    show andThen (offer i v s) (offerRow row) ≠ _
    rcases offer_cases i v s with ⟨-, e⟩ | ⟨-, e⟩ <;> rw [e]
    · exact ih _
    · nofun

/-- The only refusal: the end of the reference datapath's run. -/
theorem takeStimulus_eq_refused {s : State} {r : Refusal} :
    takeStimulus s = .refused r ↔ isReference s.wiring = true ∧ s.stimulus = [] ∧ r = .endOfRun := by
  constructor
  · intro h
    cases hs : s.stimulus with
    | nil =>
      cases hw : isReference s.wiring
      · rw [takeStimulus_held hw hs] at h
        cases h
      · rw [takeStimulus_endOfRun hw hs] at h
        cases h
        exact ⟨rfl, rfl, rfl⟩
    | cons row rest =>
      unfold takeStimulus at h
      rw [hs] at h
      exact absurd h (offerRow_ne_refused row _ r)
  · rintro ⟨hw, hs, rfl⟩
    exact takeStimulus_endOfRun hw hs

/-- Taking a row consumes it and changes Inputs only. -/
theorem takeStimulus_eq_next {s u : State} (h : takeStimulus s = .next u) :
    u.stimulus = s.stimulus.tail ∧ InputsOnly s u := by
  cases hs : s.stimulus with
  | nil =>
    cases hw : isReference s.wiring
    · rw [takeStimulus_held hw hs] at h
      cases h
      exact ⟨hs, .refl s⟩
    · rw [takeStimulus_endOfRun hw hs] at h
      cases h
  | cons row rest =>
    unfold takeStimulus at h
    rw [hs] at h
    refine ⟨offerRow_stimulus h, ?_⟩
    have k := inputsOnly_offerRow h
    exact ⟨k.wiring, k.hasEvaluated, k.outputs, k.gatheredImm, k.controlOp, k.rf, k.dm⟩

/-- A next state of a step is that of the cycle after the row is taken. -/
theorem step_eq_next {s t : State} (h : step s = .next t) : ∃ u, takeStimulus s = .next u ∧ cycle u = .next t :=
  andThen_eq_next h

end Sys2Proof.Machine
end

