-- ==== Sys2Proof/Laws/Operands.lean ====
section
/-! SUPPORT. Laws/Operands.lean: the operand forms in the words of arithmetic: the immediate is a sign extension, a byte
address is a word index and a remainder. -/

namespace Sys2Proof.Machine

/-- The source's zero-widen-and-OR is the sign extension of the 12-bit field (R164). -/
theorem signExtendImm_eq (g : ImmField) : signExtendImm g = g.signExtend 32 := by
  apply BitVec.eq_of_getLsbD_eq
  intro k hk
  unfold signExtendImm
  rw [BitVec.getLsbD_signExtend]
  have fill : (0xFFFFF000#32).getLsbD k = decide (12 ≤ k) :=
    (by decide : ∀ k < 32, (0xFFFFF000#32).getLsbD k = decide (12 ≤ k)) k hk
  have top : g.msb = g.getLsbD 11 := by simp [BitVec.msb_eq_getLsbD_last]
  rw [top]
  cases g.getLsbD 11
  · rw [if_neg (by simp)]
    simp only [BitVec.getLsbD_setWidth, hk, decide_true, Bool.true_and]
    split
    · rfl
    · exact BitVec.getLsbD_of_ge _ _ (by omega)
  · rw [if_pos rfl]
    simp only [BitVec.getLsbD_or, BitVec.getLsbD_setWidth, hk, decide_true, Bool.true_and, fill]
    split
    · rename_i h
      simp [h]
    · simp
      omega

/-- The word index is the byte address divided by 4 (R61). -/
theorem wordIndex_eq (a : Word) : wordIndex a = a.toNat / 4 := by
  simp [wordIndex, Nat.shiftRight_eq_div_pow]

/-- A word-aligned address is a multiple of 4 (R63). -/
theorem wordAligned_iff (a : Word) : wordAligned a = true ↔ a.toNat % 4 = 0 := by
  unfold wordAligned
  rw [beq_iff_eq, ← BitVec.toNat_inj]
  simp [BitVec.extractLsb'_toNat]

end Sys2Proof.Machine
end

