-- ==== Sys2Proof/Laws/PerInstr.lean ====
section
/-! SUPPORT. Laws/PerInstr.lean: the family `Encoding`: the code of a row is a code of the selector field the opcode table
gives the row (spec/30_encoding.md R92 to R95, R112). -/

namespace Sys2Proof.Laws.Encoding

/-- The code of a well-formed row stands on the row's own field and fits it. -/
def Statement (i : Instr) : Prop :=
  i.wf = true → (encode i).port = i.port ∧ (encode i).code < 2 ^ i.port.width

theorem load : Statement .load := fun _ => ⟨rfl, by decide⟩
theorem other (op : Opcode) : Statement (.other op) := fun _ => ⟨rfl, op.isLt⟩
theorem aluAdd : Statement .aluAdd := fun _ => ⟨rfl, by decide⟩
theorem aluZero001 : Statement .aluZero001 := fun _ => ⟨rfl, by decide⟩
theorem aluZero010 : Statement .aluZero010 := fun _ => ⟨rfl, by decide⟩
theorem aluZero011 : Statement .aluZero011 := fun _ => ⟨rfl, by decide⟩
theorem aluZero100 : Statement .aluZero100 := fun _ => ⟨rfl, by decide⟩
theorem aluZero101 : Statement .aluZero101 := fun _ => ⟨rfl, by decide⟩
theorem aluZero110 : Statement .aluZero110 := fun _ => ⟨rfl, by decide⟩
theorem aluZero111 : Statement .aluZero111 := fun _ => ⟨rfl, by decide⟩
theorem immUpper12 : Statement .immUpper12 := fun _ => ⟨rfl, by decide⟩
theorem immZero01 : Statement .immZero01 := fun _ => ⟨rfl, by decide⟩
theorem immZero10 : Statement .immZero10 := fun _ => ⟨rfl, by decide⟩
theorem immZero11 : Statement .immZero11 := fun _ => ⟨rfl, by decide⟩
theorem ctrlopAdd : Statement .ctrlopAdd := fun _ => ⟨rfl, by decide⟩
theorem ctrlopForcezero01 : Statement .ctrlopForcezero01 := fun _ => ⟨rfl, by decide⟩
theorem ctrlopForcezero10 : Statement .ctrlopForcezero10 := fun _ => ⟨rfl, by decide⟩
theorem ctrlopForcezero11 : Statement .ctrlopForcezero11 := fun _ => ⟨rfl, by decide⟩

end Sys2Proof.Laws.Encoding
end

