-- ==== Sys2Proof/Tests/Slice0.lean ====
section
/-! SUPPORT. Tests/Slice0.lean: tests of one decoding or one step each, with the values of spec/95_test_vectors.md (VA, VE,
VF, VM, VK, VG, P3, P4) and of the encoding tables (R92 to R95, R99, R100); and, for each obligation with hypotheses, a
state and operands that meet them. -/

namespace Sys2Proof.Tests

open Sys2Proof Sys2Proof.Machine

/-- The construction state with one row to be offered. -/
def offering (row : StimulusRow) : State :=
  { State.reset with stimulus := [row] }

/-- The construction state with other Signals. -/
def standing (f : Signals → Signals) : State :=
  { State.reset with current := f Signals.construction }

/-- A field of the next state. -/
def seen {α : Type} (f : Signals → α) (o : Host.Outcome State Fault Refusal) : Option α :=
  match o with
  | .next t => some (f t.current)
  | .fault _ => none
  | .refused _ => none

/-- A field of what is staged for the next state. -/
def staged {α : Type} (f : Signals → α) (o : Host.Outcome State Fault Refusal) : Option α :=
  match o with
  | .next t => some (f t.pending)
  | .fault _ => none
  | .refused _ => none

/-- `rf` with one register set. -/
def regs (k : RegIdx) (v : Word) : Vector Word Config.nregs :=
  rfWrite rfCleared k v

/-- The start state of program P4 (spec/95_test_vectors.md section 4), in the reference datapath, with `x1 = 0x10`. -/
def p4 (row : StimulusRow) : State :=
  { current := { Signals.construction with
      rf := { Signals.construction.rf with storage := regs 1#5 0x00000010#32 }
      dm := { Signals.construction.dm with
        storage := [(1, 0x00000010#32), (3, 0x00000063#32), (4, 0x00000020#32), (8, 0xDEADBEEF#32), (63, 0x7FFFFFFF#32)] } }
    pending := Signals.construction
    hasEvaluated := false
    wiring := Wiring.reference
    stimulus := [row] }

/-! ### Well-formedness: each check refuses an ill-formed term -/

theorem test_wf_other_is_not_load : (Instr.other 0b0000011#7).wf = false := rfl
theorem test_wf_other : (Instr.other 0b0000010#7).wf = true := rfl
theorem test_wf_code_fits : (Presented.mk .aluControl3 8).wf = false := rfl
theorem test_wf_code_top : (Presented.mk .aluControl3 7).wf = true := rfl
theorem test_wf_word_is_no_load : (DatapathWord.word 0x00402083#32).wf = false := by decide
theorem test_wf_word : (DatapathWord.word 0x0083A223#32).wf = true := by decide
theorem test_wf_memory_lists_no_zero : Memory.wf [(1, 0x00000000#32)] = false := rfl
theorem test_wf_memory_rises : Memory.wf [(2, 0x00000001#32), (1, 0x00000001#32)] = false := rfl
theorem test_wf_memory_ends : Memory.wf [(64, 0x00000001#32)] = false := rfl

/-! ### Decoding: every constructor from the code of R92 to R95 -/

theorem test_decode_load : decode ⟨.op7, 0b0000011⟩ = .ok .load := rfl
theorem test_decode_other : decode ⟨.op7, 0b0110011⟩ = .ok (.other 0b0110011#7) := rfl
theorem test_decode_aluAdd : decode ⟨.aluControl3, 0b000⟩ = .ok .aluAdd := rfl
theorem test_decode_aluZero001 : decode ⟨.aluControl3, 0b001⟩ = .ok .aluZero001 := rfl
theorem test_decode_aluZero010 : decode ⟨.aluControl3, 0b010⟩ = .ok .aluZero010 := rfl
theorem test_decode_aluZero011 : decode ⟨.aluControl3, 0b011⟩ = .ok .aluZero011 := rfl
theorem test_decode_aluZero100 : decode ⟨.aluControl3, 0b100⟩ = .ok .aluZero100 := rfl
theorem test_decode_aluZero101 : decode ⟨.aluControl3, 0b101⟩ = .ok .aluZero101 := rfl
theorem test_decode_aluZero110 : decode ⟨.aluControl3, 0b110⟩ = .ok .aluZero110 := rfl
theorem test_decode_aluZero111 : decode ⟨.aluControl3, 0b111⟩ = .ok .aluZero111 := rfl
theorem test_decode_immUpper12 : decode ⟨.immSrc2, 0b00⟩ = .ok .immUpper12 := rfl
theorem test_decode_immZero01 : decode ⟨.immSrc2, 0b01⟩ = .ok .immZero01 := rfl
theorem test_decode_immZero10 : decode ⟨.immSrc2, 0b10⟩ = .ok .immZero10 := rfl
theorem test_decode_immZero11 : decode ⟨.immSrc2, 0b11⟩ = .ok .immZero11 := rfl
theorem test_decode_ctrlopAdd : decode ⟨.controlOp2, 0b00⟩ = .ok .ctrlopAdd := rfl
theorem test_decode_ctrlopForcezero01 : decode ⟨.controlOp2, 0b01⟩ = .ok .ctrlopForcezero01 := rfl
theorem test_decode_ctrlopForcezero10 : decode ⟨.controlOp2, 0b10⟩ = .ok .ctrlopForcezero10 := rfl
theorem test_decode_ctrlopForcezero11 : decode ⟨.controlOp2, 0b11⟩ = .ok .ctrlopForcezero11 := rfl
theorem test_decode_too_wide : decode ⟨.immSrc2, 4⟩ = .error (.codeTooWide .immSrc2 4) := rfl
theorem test_table_word_load : decodeTableWord 8 0x03 = some .load := rfl
theorem test_table_word_alu : decodeTableWord 3 0x03 = some .aluZero011 := rfl
theorem test_table_word_imm : decodeTableWord 2 0x02 = some .immZero10 := rfl
theorem test_table_word_store : decodeTableWord 32 0x0083A223 = some (.other 0b0100011#7) := rfl

/-- `lw x5, 100(x0)` (P3). -/
theorem test_word_lw : encodeWord (.lwAsm 5#5 0#5 0x064#12) = 0x06402283#32 := by decide
theorem test_word_lw_negative : decodeWord 0xFFC0A183#32 = .lw 3#5 1#5 0xFFC#12 0b010#3 := by decide
theorem test_word_store : decodeWord 0x0083A223#32 = .word 0x0083A223#32 := by decide
theorem test_word_raw : (cutWord 0xFFC0A103#32).raw = 0x1FF8142#25 := by decide

/-! ### One step of each row, standing alone -/

/-- VA3. -/
theorem test_step_aluAdd :
    seen (fun g => (g.alu.result, g.alu.zero)) (step (offering [(.aluControl, 0b000), (.src1, 0x12345678), (.src2, 0x87654321)])) =
      some (0x99999999#32, 0#1) := by decide
/-- VA4. -/
theorem test_step_aluAdd_wraps :
    seen (fun g => (g.alu.result, g.alu.zero)) (step (offering [(.aluControl, 0b000), (.src1, 0xFFFFFFFF), (.src2, 0x00000001)])) =
      some (0x00000000#32, 1#1) := by decide
/-- VA11. -/
theorem test_step_aluZero001 :
    seen (fun g => (g.alu.result, g.alu.zero)) (step (offering [(.aluControl, 0b001), (.src1, 0x5), (.src2, 0x3)])) =
      some (0x00000000#32, 1#1) := by decide
/-- VA12. -/
theorem test_step_aluZero010 :
    seen (fun g => (g.alu.result, g.alu.zero)) (step (offering [(.aluControl, 0b010), (.src1, 0xFFFFFFFF), (.src2, 0x0F0F0F0F)])) =
      some (0x00000000#32, 1#1) := by decide
/-- VA13. -/
theorem test_step_aluZero011 :
    seen (fun g => (g.alu.result, g.alu.zero)) (step (offering [(.aluControl, 0b011), (.src1, 0x1), (.src2, 0x1)])) =
      some (0x00000000#32, 1#1) := by decide
/-- VA14. -/
theorem test_step_aluZero100 :
    seen (fun g => (g.alu.result, g.alu.zero)) (step (offering [(.aluControl, 0b100), (.src1, 0x0), (.src2, 0x0)])) =
      some (0x00000000#32, 1#1) := by decide
/-- VA15. -/
theorem test_step_aluZero101 :
    seen (fun g => (g.alu.result, g.alu.zero)) (step (offering [(.aluControl, 0b101), (.src1, 0xAAAAAAAA), (.src2, 0x55555555)])) =
      some (0x00000000#32, 1#1) := by decide
/-- VA16. -/
theorem test_step_aluZero110 :
    seen (fun g => (g.alu.result, g.alu.zero)) (step (offering [(.aluControl, 0b110), (.src1, 0x7), (.src2, 0x7)])) =
      some (0x00000000#32, 1#1) := by decide
/-- VA17. -/
theorem test_step_aluZero111 :
    seen (fun g => (g.alu.result, g.alu.zero)) (step (offering [(.aluControl, 0b111), (.src1, 0xFFFFFFFF), (.src2, 0xFFFFFFFF)])) =
      some (0x00000000#32, 1#1) := by decide
/-- VE8. -/
theorem test_step_immUpper12 :
    seen (fun g => (g.se.gatheredImm, g.se.immediate)) (step (offering [(.immSrc, 0b00), (.raw, 0x1F38000)])) =
      some (0xF9C#12, 0xFFFFFF9C#32) := by decide
/-- VE5. -/
theorem test_step_immUpper12_low_bits_ignored :
    seen (fun g => (g.se.gatheredImm, g.se.immediate)) (step (offering [(.immSrc, 0b00), (.raw, 0x00C9ABC)])) =
      some (0x064#12, 0x00000064#32) := by decide
/-- VE10. -/
theorem test_step_immZero01 :
    seen (fun g => (g.se.gatheredImm, g.se.immediate)) (step (offering [(.immSrc, 0b01), (.raw, 0x1F38000)])) =
      some (0x000#12, 0x00000000#32) := by decide
/-- VE11. -/
theorem test_step_immZero10 :
    seen (fun g => (g.se.gatheredImm, g.se.immediate)) (step (offering [(.immSrc, 0b10), (.raw, 0x1F38000)])) =
      some (0x000#12, 0x00000000#32) := by decide
/-- VE12. -/
theorem test_step_immZero11 :
    seen (fun g => (g.se.gatheredImm, g.se.immediate)) (step (offering [(.immSrc, 0b11), (.raw, 0x1FFFFFF)])) =
      some (0x000#12, 0x00000000#32) := by decide
/-- VK2. -/
theorem test_step_load :
    seen (fun g => (g.ctrl.aluControl, g.ctrl.immSource, g.ctrl.memWrite, g.ctrl.regWrite))
      (step (offering [(.op, 0b0000011), (.func3, 0b111), (.func7, 0b1111111), (.aluZero, 1)])) =
      some (0b000#3, 0b00#2, 0#1, 1#1) := by decide
/-- VK4: a RISC-V store opcode. -/
theorem test_step_other :
    seen (fun g => (g.ctrl.aluControl, g.ctrl.immSource, g.ctrl.memWrite, g.ctrl.regWrite))
      (step (offering [(.op, 0b0100011), (.func3, 0b010)])) = some (0b000#3, 0b00#2, 0#1, 0#1) := by decide
/-- VK8: one bit away from the load opcode. -/
theorem test_step_other_near_load : seen (fun g => g.ctrl.regWrite) (step (offering [(.op, 0b0000010)])) = some 0#1 := by
  decide
/-- 95_test_vectors.md section 2.5, the second stage alone. -/
theorem test_exec_ctrlopAdd : staged (fun g => g.ctrl.aluControl) (exec .ctrlopAdd State.reset) = some 0b000#3 := rfl
/-- 95_test_vectors.md section 2.5, the second stage alone. -/
theorem test_exec_ctrlopForcezero01 : staged (fun g => g.ctrl.aluControl) (exec .ctrlopForcezero01 State.reset) = some 0b111#3 := rfl
/-- 95_test_vectors.md section 2.5, the second stage alone. -/
theorem test_exec_ctrlopForcezero10 : staged (fun g => g.ctrl.aluControl) (exec .ctrlopForcezero10 State.reset) = some 0b111#3 := rfl
/-- 95_test_vectors.md section 2.5, the second stage alone. -/
theorem test_exec_ctrlopForcezero11 : staged (fun g => g.ctrl.aluControl) (exec .ctrlopForcezero11 State.reset) = some 0b111#3 := rfl

/-! ### The clocked blocks -/

/-- VF2: the old value is read in the write cycle. -/
theorem test_rf_write :
    seen (fun g => (g.rf.readData1, g.rf.storage)) (step (offering [(.rfRstN, 1), (.address1, 9), (.address2, 9),
      (.address3, 9), (.rfWriteData, 0xFFFFFFFF), (.rfWriteEnable, 1)])) =
      some (0x00000000#32, regs 9#5 0xFFFFFFFF#32) := by decide
/-- VF3: a write to index 0 is refused. -/
theorem test_rf_write_zero :
    seen (fun g => (g.rf.readData1, g.rf.readData2, g.rf.storage))
      (step { (standing fun g => { g with rf := { g.rf with storage := regs 9#5 0xFFFFFFFF#32 } }) with
        stimulus := [[(.rfRstN, 1), (.address1, 9), (.rfWriteData, 0x12345678), (.rfWriteEnable, 1)]] }) =
      some (0xFFFFFFFF#32, 0x00000000#32, regs 9#5 0xFFFFFFFF#32) := by decide
/-- VF5: reset beats a write; the pre-reset value is still read. -/
theorem test_rf_reset :
    seen (fun g => (g.rf.readData1, g.rf.storage))
      (step { (standing fun g => { g with rf := { g.rf with storage := regs 9#5 0xFFFFFFFF#32 } }) with
        stimulus := [[(.rfRstN, 0), (.address1, 9), (.address3, 10), (.rfWriteData, 5), (.rfWriteEnable, 1)]] }) =
      some (0xFFFFFFFF#32, rfCleared) := by decide

/-- A memory with `dm[8]`, and one Data Memory row. -/
def dmRow (rstN address writeData writeEnable : Nat) : State :=
  { (standing fun g => { g with dm := { g.dm with storage := [(8, 0xDEADBEEF#32)] } }) with
    stimulus := [[(.dmRstN, rstN), (.address, address), (.dmWriteData, writeData), (.dmWriteEnable, writeEnable)]] }

/-- VM2, with another word already there: an aligned write; the word before it is read. -/
theorem test_dm_write : seen (fun g => (g.dm.readData, g.dm.storage)) (step (dmRow 1 0xFC 0x7FFFFFFF 1)) =
    some (0x00000000#32, [(8, 0xDEADBEEF#32), (63, 0x7FFFFFFF#32)]) := by decide
/-- VM3: a misaligned read. -/
theorem test_dm_misaligned_read : seen (fun g => g.dm.readData) (step (dmRow 1 0x21 0 0)) = some 0xDEADBEEF#32 := by
  decide
/-- VM4: a misaligned write does nothing. -/
theorem test_dm_misaligned_write : seen (fun g => (g.dm.readData, g.dm.storage)) (step (dmRow 1 0x22 0x11111111 1)) =
    some (0xDEADBEEF#32, [(8, 0xDEADBEEF#32)]) := by decide
/-- VM8's address: the last byte address in range. -/
theorem test_dm_last_byte : seen (fun g => g.dm.readData) (step (dmRow 1 0xFF 0 0)) = some 0x00000000#32 := by decide
/-- VM9: reset beats a write. -/
theorem test_dm_reset : seen (fun g => (g.dm.readData, g.dm.storage)) (step (dmRow 0 0x20 1 1)) =
    some (0xDEADBEEF#32, []) := by decide
/-- Storing 0 unlists the cell. -/
theorem test_dm_canonical : seen (fun g => g.dm.storage) (step (dmRow 1 0x20 0 1)) = some [] := by decide
/-- VM10. -/
theorem test_dm_out_of_range : step (dmRow 1 0x100 0 0) = .fault (.addressOutOfRange 0x00000100#32) := rfl
/-- VM12: out of range beats misaligned. -/
theorem test_dm_out_of_range_misaligned : step (dmRow 1 0x101 0 1) = .fault (.addressOutOfRange 0x00000101#32) := rfl
/-- VM13: out of range beats reset. -/
theorem test_dm_out_of_range_reset : step (dmRow 0 0xFFFFFFFC 0 0) = .fault (.addressOutOfRange 0xFFFFFFFC#32) := rfl

/-! ### Failures and connections -/

/-- VG3. -/
theorem test_width_address1 : step (offering [(.address1, 32)]) = .fault (.widthOverflow .address1 32) := rfl
/-- VG4. -/
theorem test_width_raw : step (offering [(.raw, 0x2000000)]) = .fault (.widthOverflow .raw 0x2000000) := rfl
/-- VG5, `WIRE_LATENCY` 0, cycle 0. -/
theorem test_latency_zero : seen (fun g => g.alu.result)
    (step { offering [(.raw, 0x00C8000), (.src1, 0x10)] with wiring := { Wiring.standAlone with src2 := .direct } }) =
    some 0x00000074#32 := by decide
/-- VG5, `WIRE_LATENCY` 1, cycle 0. -/
theorem test_latency_one : seen (fun g => g.alu.result)
    (step { offering [(.raw, 0x00C8000), (.src1, 0x10)] with wiring := { Wiring.standAlone with src2 := .registered } }) =
    some 0x00000010#32 := by decide
/-- VG5, `WIRE_LATENCY` 1, cycle 1: `src1` is held, and the committed `immediate` of cycle 0 arrives. -/
theorem test_latency_one_next : seen (fun g => g.alu.result)
    (step { (standing fun g => { g with
        alu := { g.alu with src1 := 0x10 }, se := { g.se with immediate := 0x00000064#32 } }) with
      hasEvaluated := true, wiring := { Wiring.standAlone with src2 := .registered },
      stimulus := [[(.raw, 0x1F38000)]] }) = some 0x00000074#32 := by decide
/-- R48: the same Output cell, before the first evaluation: it is not read. -/
theorem test_latency_one_unevaluated : seen (fun g => (g.alu.src2, g.alu.result))
    (step { (standing fun g => { g with
        alu := { g.alu with src1 := 0x10 }, se := { g.se with immediate := 0x00000064#32 } }) with
      wiring := { Wiring.standAlone with src2 := .registered } }) = some (0x00000000#32, 0x00000010#32) := by decide
/-- P4, cycle 2: `lw x3, -4(x1)` reads `dm[3]`. -/
theorem test_datapath_lw : seen (fun g => (g.dm.address, rfRead g.rf.storage 3#5, rfRead g.rf.storage 1#5))
    (step (p4 [(.instr, 0xFFC0A183), (.rstN, 1)])) = some (0x0000000C#32, 0x00000063#32, 0x00000010#32) := by decide
/-- P4, cycle 4: `lw x0, 4(x0)` loads nothing. -/
theorem test_datapath_lw_x0 : seen (fun g => g.rf.storage) (step (p4 [(.instr, 0x00402003), (.rstN, 1)])) =
    some (regs 1#5 0x00000010#32) := by decide
/-- P3's store word in the reference datapath: no storage changes (R248). -/
theorem test_datapath_store_word : seen (fun g => (g.rf.storage, g.dm.storage))
    (step (p4 [(.instr, 0x0083A223), (.rstN, 1)])) =
    some (regs 1#5 0x00000010#32, (p4 []).current.dm.storage) := by decide
/-- R252: no pair is left, so the run is over. -/
theorem test_datapath_end_of_run : step { p4 [] with stimulus := [] } = .refused .endOfRun := rfl
/-- Log entry 22: the later of two values for one Input stands, in the reference datapath too. -/
theorem test_later_value_stands : seen (fun g => (g.rf.address1, g.rf.rstN, g.dm.rstN))
    (step (p4 [(.instr, 0x0040A183), (.rstN, 1), (.address1, 0), (.rfRstN, 0)])) = some (0#5, 0#1, 1#1) := by decide
theorem test_later_word_stands : seen (fun g => (g.rf.address1, g.rf.rstN, g.dm.rstN))
    (step (p4 [(.rfRstN, 0), (.address1, 0), (.instr, 0xFFC0A183), (.rstN, 1)])) = some (1#5, 1#1, 1#1) := by decide
/-- VG6. -/
theorem test_first_cycle : seen (fun g => (g.rf.storage, g.dm.storage)) (step State.reset) = some (rfCleared, []) := by
  decide
/-- The next step after `withFetchWord` runs the row: ALU_ZERO_101 leaves `zero = 1`. -/
theorem test_with_fetch_word : seen (fun g => (g.alu.aluControl, g.alu.zero)) (step (State.reset.withFetchWord 8 0x05)) =
    some (0b101#3, 1#1) := by decide

/-! ### The hypotheses of the obligations can be met -/

theorem witness_UnassignedAluRowsForceZero : (0b111#3 : AluCode) ≠ 0b000#3 ∧
    Instr.aluZero111 ∈ [Instr.aluZero001, .aluZero010, .aluZero011, .aluZero100, .aluZero101, .aluZero110, .aluZero111] := by
  decide
theorem witness_UnassignedImmRowsStageZero : (0b01#2 : ImmCode) ≠ 0b00#2 ∧
    Instr.immZero01 ∈ [Instr.immZero01, .immZero10, .immZero11] := by decide
/-- Both ends of the two ranges, and words outside them. -/
theorem witness_ImmediateRange : outSE 0x0FFFFFF#25 0b00#2 = 0x000007FF#32 ∧ outSE 0x1000000#25 0b00#2 = 0xFFFFF800#32 ∧
    ¬ ((0x00000800#32 : Word).toNat ≤ 0x7FF ∨ 0xFFFFF800 ≤ (0x00000800#32 : Word).toNat) ∧
    ¬ ((0xFFFFF7FF#32 : Word).toNat ≤ 0x7FF ∨ 0xFFFFF800 ≤ (0xFFFFF7FF#32 : Word).toNat) := by decide
theorem witness_OtherRowStagesItsControls : (0b0000010#7 : Opcode) ≠ 0b0000011#7 := by decide
theorem witness_SecondStageRowsStageAluControl : (0b01#2 : CtrlCode) ≠ 0b00#2 ∧
    Instr.ctrlopForcezero01 ∈ [Instr.ctrlopForcezero01, .ctrlopForcezero10, .ctrlopForcezero11] := by decide
theorem witness_EveryRowCompletesWithinItsBlock : Instr.load.port ≠ .aluControl3 ∧ Instr.load.port ≠ .immSrc2 ∧
    Instr.aluAdd.port = .aluControl3 ∧ Instr.immZero11.port = .immSrc2 ∧ Instr.ctrlopAdd.port = .controlOp2 := by decide
/-- An update that fails, and one that answers. -/
theorem witness_UpdatesReadCurrentAndWritePending :
    updateBlock .dataMemory (standing fun g => { g with dm := { g.dm with address := 0x00000100#32 } }) =
      .fault (.addressOutOfRange 0x00000100#32) ∧ ∃ t, updateBlock .controller State.reset = .next t := ⟨rfl, _, rfl⟩
theorem witness_RegisterWriteIsSeenFromTheNextCycle : ∃ s u : State,
    takeStimulus s = .next u ∧ u.wiring = Wiring.standAlone ∧ u.current.dm.address.toNat < 0x100 ∧ u.current.rf.rstN = 1#1 ∧ u.current.rf.writeEnable = 1#1 ∧ u.current.rf.address3 ≠ 0#5 :=
  ⟨(standing fun g => { g with rf := { g.rf with rstN := 1, writeEnable := 1, address3 := 31, writeData := 7 } }), (standing fun g => { g with rf := { g.rf with rstN := 1, writeEnable := 1, address3 := 31, writeData := 7 } }), rfl, rfl, by decide, by decide, by decide, by decide⟩
/-- All three clauses at once. -/
theorem witness_RegisterZeroRefusesWritesAndReadsZero : ∃ s u : State,
    takeStimulus s = .next u ∧ u.wiring = Wiring.standAlone ∧ u.current.dm.address.toNat < 0x100 ∧ u.current.rf.rstN = 1#1 ∧ u.current.rf.writeEnable = 1#1 ∧ u.current.rf.address3 = 0#5 ∧ u.current.rf.address1 = 0#5 ∧ u.current.rf.address2 = 0#5 :=
  ⟨(standing fun g => { g with rf := { g.rf with rstN := 1, writeEnable := 1, writeData := 7 } }), (standing fun g => { g with rf := { g.rf with rstN := 1, writeEnable := 1, writeData := 7 } }), rfl, rfl, by decide, by decide, by decide, by decide, by decide, by decide⟩
/-- With a write presented, and a register that is not 0. -/
theorem witness_RegisterResetBeatsWrite : ∃ s u : State,
    takeStimulus s = .next u ∧ u.wiring = Wiring.standAlone ∧ u.current.dm.address.toNat < 0x100 ∧ u.current.rf.rstN = 0#1 ∧ u.current.rf.writeEnable = 1#1 :=
  ⟨(standing fun g => { g with rf := { g.rf with writeEnable := 1, address3 := 10, writeData := 5, storage := regs 9#5 1#32 } }), (standing fun g => { g with rf := { g.rf with writeEnable := 1, address3 := 10, writeData := 5, storage := regs 9#5 1#32 } }), rfl, rfl, by decide, by decide, by decide⟩
theorem witness_RegisterHold_disabled : ∃ s u : State,
    takeStimulus s = .next u ∧ u.wiring = Wiring.standAlone ∧ u.current.dm.address.toNat < 0x100 ∧ u.current.rf.rstN = 1#1 ∧ u.current.rf.writeEnable = 0#1 :=
  ⟨(standing fun g => { g with rf := { g.rf with rstN := 1, address3 := 9, storage := regs 9#5 1#32 } }), (standing fun g => { g with rf := { g.rf with rstN := 1, address3 := 9, storage := regs 9#5 1#32 } }), rfl, rfl, by decide, by decide, by decide⟩
theorem witness_RegisterHold_index_zero : ∃ s u : State,
    takeStimulus s = .next u ∧ u.wiring = Wiring.standAlone ∧ u.current.dm.address.toNat < 0x100 ∧ u.current.rf.rstN = 1#1 ∧ u.current.rf.writeEnable = 1#1 ∧ u.current.rf.address3 = 0#5 :=
  ⟨(standing fun g => { g with rf := { g.rf with rstN := 1, writeEnable := 1 } }), (standing fun g => { g with rf := { g.rf with rstN := 1, writeEnable := 1 } }), rfl, rfl, by decide, by decide, by decide, by decide⟩
/-- The last word. -/
theorem witness_AlignedWriteStoresExactlyOneWord : ∃ s u : State,
    takeStimulus s = .next u ∧ u.wiring = Wiring.standAlone ∧ Memory.wf s.current.dm.storage = true ∧ u.current.dm.address.toNat < 0x100 ∧ u.current.dm.rstN = 1#1 ∧ u.current.dm.writeEnable = 1#1 ∧ u.current.dm.address.toNat % 4 = 0 :=
  ⟨(standing fun g => { g with dm := { g.dm with rstN := 1, writeEnable := 1, address := 0x000000FC#32, writeData := 1, storage := [(8, 0xDEADBEEF#32)] } }), (standing fun g => { g with dm := { g.dm with rstN := 1, writeEnable := 1, address := 0x000000FC#32, writeData := 1, storage := [(8, 0xDEADBEEF#32)] } }), rfl, rfl, by decide, by decide, by decide, by decide, by decide⟩
/-- The last byte address in range. -/
theorem witness_MisalignedWriteIsIgnored : ∃ s u : State,
    takeStimulus s = .next u ∧ u.wiring = Wiring.standAlone ∧ u.current.dm.address.toNat < 0x100 ∧ u.current.dm.rstN = 1#1 ∧ u.current.dm.writeEnable = 1#1 ∧ u.current.dm.address.toNat % 4 ≠ 0 :=
  ⟨(standing fun g => { g with dm := { g.dm with rstN := 1, writeEnable := 1, address := 0x000000FF#32 } }), (standing fun g => { g with dm := { g.dm with rstN := 1, writeEnable := 1, address := 0x000000FF#32 } }), rfl, rfl, by decide, by decide, by decide, by decide⟩
theorem witness_ReadReturnsTheAlignedWord : ∃ s u : State,
    takeStimulus s = .next u ∧ u.wiring = Wiring.standAlone ∧ u.current.dm.address.toNat < 0x100 ∧ u.current.dm.address.toNat = 0xFF :=
  ⟨(standing fun g => { g with dm := { g.dm with address := 0x000000FF#32 } }), (standing fun g => { g with dm := { g.dm with address := 0x000000FF#32 } }), rfl, rfl, by decide, by decide⟩
theorem witness_MemoryResetBeatsWrite : ∃ s u : State,
    takeStimulus s = .next u ∧ u.wiring = Wiring.standAlone ∧ u.current.dm.address.toNat < 0x100 ∧ u.current.dm.rstN = 0#1 ∧ u.current.dm.writeEnable = 1#1 :=
  ⟨(standing fun g => { g with dm := { g.dm with writeEnable := 1, address := 0x000000FC#32, storage := [(8, 1#32)] } }), (standing fun g => { g with dm := { g.dm with writeEnable := 1, address := 0x000000FC#32, storage := [(8, 1#32)] } }), rfl, rfl, by decide, by decide, by decide⟩
theorem witness_MemoryHold : ∃ s u : State,
    takeStimulus s = .next u ∧ u.wiring = Wiring.standAlone ∧ u.current.dm.address.toNat < 0x100 ∧ u.current.dm.rstN = 1#1 ∧ u.current.dm.writeEnable = 0#1 :=
  ⟨(standing fun g => { g with dm := { g.dm with rstN := 1, address := 0x00000020#32, storage := [(8, 1#32)] } }), (standing fun g => { g with dm := { g.dm with rstN := 1, address := 0x00000020#32, storage := [(8, 1#32)] } }), rfl, rfl, by decide, by decide, by decide⟩
/-- The first address out of range. -/
theorem witness_OutOfRangeAddressFailsTheCycle_first : ∃ s u : State,
    takeStimulus s = .next u ∧ u.wiring = Wiring.standAlone ∧ 0x100 ≤ u.current.dm.address.toNat :=
  ⟨(standing fun g => { g with dm := { g.dm with address := 0x00000100#32 } }), (standing fun g => { g with dm := { g.dm with address := 0x00000100#32 } }), rfl, rfl, by decide⟩
/-- The last address in range. -/
theorem witness_OutOfRangeAddressFailsTheCycle_last : ∃ s u : State,
    takeStimulus s = .next u ∧ u.wiring = Wiring.standAlone ∧ u.current.dm.address.toNat < 0x100 ∧ u.current.dm.address.toNat = 0xFF :=
  ⟨(standing fun g => { g with dm := { g.dm with address := 0x000000FF#32 } }), (standing fun g => { g with dm := { g.dm with address := 0x000000FF#32 } }), rfl, rfl, by decide, by decide⟩
theorem witness_OneResetCycleRestoresConstructionStorage : ∃ s u : State,
    takeStimulus s = .next u ∧ u.wiring = Wiring.standAlone ∧ u.current.dm.address.toNat < 0x100 ∧ u.current.rf.rstN = 0#1 ∧ u.current.dm.rstN = 0#1 :=
  ⟨(standing fun g => { g with rf := { g.rf with storage := regs 9#5 1#32 }, dm := { g.dm with storage := [(8, 1#32)] } }), (standing fun g => { g with rf := { g.rf with storage := regs 9#5 1#32 }, dm := { g.dm with storage := [(8, 1#32)] } }), rfl, rfl, by decide, by decide, by decide⟩
theorem witness_ResetsAreSeparate_registers : ∃ s u : State,
    takeStimulus s = .next u ∧ u.wiring = Wiring.standAlone ∧ u.current.dm.address.toNat < 0x100 ∧ u.current.rf.rstN = 0#1 ∧ u.current.dm.rstN = 1#1 ∧ u.current.dm.writeEnable = 0#1 :=
  ⟨(standing fun g => { g with dm := { g.dm with rstN := 1 } }), (standing fun g => { g with dm := { g.dm with rstN := 1 } }), rfl, rfl, by decide, by decide, by decide, by decide⟩
theorem witness_ResetsAreSeparate_memory : ∃ s u : State,
    takeStimulus s = .next u ∧ u.wiring = Wiring.standAlone ∧ u.current.dm.address.toNat < 0x100 ∧ u.current.dm.rstN = 0#1 ∧ u.current.rf.rstN = 1#1 ∧ u.current.rf.writeEnable = 0#1 :=
  ⟨(standing fun g => { g with rf := { g.rf with rstN := 1 } }), (standing fun g => { g with rf := { g.rf with rstN := 1 } }), rfl, rfl, by decide, by decide, by decide, by decide⟩
/-- A run of two cycles: a write, then a read of the word written. -/
theorem witness_ReadReturnsTheMostRecentWrite : ∃ (s t₁ t₂ : State), Memory.wf s.current.dm.storage = true ∧
    Run s ([t₁] ++ t₂ :: []) :=
  ⟨{ State.reset with stimulus := [[(.dmRstN, 1), (.address, 0x20), (.dmWriteData, 7), (.dmWriteEnable, 1)],
      [(.dmWriteEnable, 0)]] }, _, _, rfl, rfl, rfl, trivial⟩
/-- A row that fits at the top of its Input, and a value one above it. -/
theorem witness_TooWideValueIsWidthOverflow :
    (∃ (s : State) (row : StimulusRow) (rest : List StimulusRow), s.stimulus = row :: rest ∧ rowFits row = true) ∧
    ∃ (s : State) (row rest' before after : StimulusRow) (rest : List StimulusRow) (i : InputId) (v : Nat),
      s.stimulus = row :: rest ∧ row = before ++ (i, v) :: after ∧ rest' = after ∧ rowFits before = true ∧
        2 ^ inputWidth i ≤ v :=
  ⟨⟨offering [(.address1, 31)], _, _, rfl, rfl⟩,
    ⟨offering [(.address1, 31), (.address2, 32)], _, [], [(.address1, 31)], [], _, .address2, 32, rfl, rfl, rfl, rfl,
      by decide⟩⟩
/-- The four answers of a step. -/
theorem witness_StepHasNoOtherFailure : (∃ t, step State.reset = .next t) ∧
    step { State.reset with wiring := Wiring.reference } = .refused .endOfRun ∧
    step (dmRow 1 0x100 0 0) = .fault (.addressOutOfRange 0x00000100#32) ∧
    step (offering [(.op, 128)]) = .fault (.widthOverflow .op 128) := ⟨⟨_, rfl⟩, rfl, rfl, rfl⟩
theorem witness_EveryCycleMeetsTheBlockFunctions : ∃ t, step (p4 [(.instr, 0xFFC0A183), (.rstN, 1)]) = .next t := ⟨_, rfl⟩
/-- Each kind of connection, in a cycle that completes. -/
theorem witness_ConnectionsCarryTheirProducersValue : ∃ s u t : State, takeStimulus s = .next u ∧ step s = .next t ∧
    linkOf s.wiring .src1 = .environment ∧ linkOf s.wiring .src2 = .direct ∧ linkOf s.wiring .immSrc = .registered ∧
    s.hasEvaluated = true :=
  ⟨{ State.reset with hasEvaluated := true, wiring := { Wiring.standAlone with src2 := .direct, immSrc := .registered } },
    _, _, rfl, rfl, rfl, rfl, rfl, rfl⟩
/-- A registered connection before the first evaluation. -/
theorem witness_ConnectionsCarryTheirProducersValue_first : ∃ s u t : State, takeStimulus s = .next u ∧
    step s = .next t ∧ linkOf s.wiring .immSrc = .registered ∧ s.hasEvaluated = false :=
  ⟨{ State.reset with wiring := { Wiring.standAlone with immSrc := .registered } }, _, _, rfl, rfl, rfl, rfl⟩
/-- Another value in an Output cell, before the first evaluation, and after it without a registered connection. -/
theorem witness_NoStepReadsAnUnevaluatedOutput : ∃ (s s' : State) (g : Signals), s.hasEvaluated = false ∧
    noLink .registered s'.wiring = true ∧ s'.hasEvaluated = true ∧ s'.current = s.current ∧ SameInputs g s.current ∧
    g.rf.storage = s.current.rf.storage ∧ g.dm.storage = s.current.dm.storage ∧ g ≠ s.current :=
  ⟨State.reset, { State.reset with hasEvaluated := true },
    { Signals.construction with se := { Signals.construction.se with immediate := 5 } }, rfl, rfl, rfl, rfl,
    by constructor <;> rfl, rfl, rfl, by decide⟩
theorem witness_StandAloneCycleChangesNoInput : ∃ s u t : State, takeStimulus s = .next u ∧
    u.wiring = Wiring.standAlone ∧ step s = .next t :=
  ⟨offering [(.src1, 5), (.op, 3)], _, _, rfl, rfl, rfl⟩
/-- Two cycles that agree on the ALU, Sign-Extension, Controller and Data Memory Inputs and differ in the Register File's. -/
theorem witness_StandAloneBlocksDoNotInfluenceEachOther : ∃ s u t s' u' t' : State, takeStimulus s = .next u ∧
    takeStimulus s' = .next u' ∧ u.wiring = Wiring.standAlone ∧ u'.wiring = Wiring.standAlone ∧ step s = .next t ∧
    step s' = .next t' ∧ u.current.alu.src1 = u'.current.alu.src1 ∧ u.current.alu.src2 = u'.current.alu.src2 ∧
    u.current.alu.aluControl = u'.current.alu.aluControl ∧ u.current.se.raw = u'.current.se.raw ∧
    u.current.se.immSrc = u'.current.se.immSrc ∧ u.current.ctrl.op = u'.current.ctrl.op ∧ u.current.dm = u'.current.dm ∧
    u.current.rf ≠ u'.current.rf :=
  ⟨offering [(.address1, 5)], _, _, offering [(.address1, 6)], _, _, rfl, rfl, rfl, rfl, rfl, rfl, rfl, rfl, rfl, rfl, rfl,
    rfl, rfl, by decide⟩
theorem witness_EvaluationOrderDoesNotMatter : noLink .direct State.reset.wiring = true ∧
    List.Perm [Block.alu, .dataMemory, .registerFile, .signExtension, .controller] allBlocks := by decide
theorem witness_CommitIsTheOnlyChangeOfState : ∃ e, evaluate (restage State.reset) = .next e := ⟨_, rfl⟩
theorem witness_StepKeepsWiringAndConsumesItsRow : ∃ t, step (offering [(.src1, 5)]) = .next t := ⟨_, rfl⟩
/-- A row that fits, one that does not, and no row left. -/
theorem witness_StepRunsTheDecodedRows : (∃ u, takeStimulus (offering [(.op, 3)]) = .next u) ∧
    takeStimulus (offering [(.op, 128)]) = .fault (.widthOverflow .op 128) ∧
    takeStimulus { State.reset with wiring := Wiring.reference } = .refused .endOfRun := ⟨⟨_, rfl⟩, rfl, rfl⟩
/-- One row and its one cycle, the boundary of both clauses. -/
theorem witness_ReferenceDatapathRunEndsWithItsRows : ∃ (s t : State), isReference s.wiring = true ∧ Run s [t] ∧
    [t].length = s.stimulus.length :=
  ⟨p4 [(.instr, 0xFFC0A183), (.rstN, 1)], _, rfl, ⟨rfl, trivial⟩, rfl⟩
theorem witness_PresentedTableWordIsTheNextRow : decodeTableWord 8 0x03 = some .load ∧
    decodeTableWord 8 0x07 = some .aluZero111 ∧ decodeTableWord 2 0x03 = some .immZero11 ∧
    decodeTableWord 32 0xFFFFFFFF = some (.other 0b1111111#7) := ⟨rfl, rfl, rfl, rfl⟩
theorem witness_StepKeepsTheInvariant : ∃ s t : State, Inv s ∧ step s = .next t :=
  ⟨State.reset, _, by constructor <;> decide, rfl⟩
/-- `stepDP` that answers, and one that fails. -/
theorem witness_ReferenceDatapathMeetsStepDP :
    (p4 []).wiring = Wiring.reference ∧
    (p4 [(.instr, (0xFFC0A183#32 : Word).toNat), (.rstN, (1#1 : Bit).toNat)]).stimulus =
      [(.instr, (0xFFC0A183#32 : Word).toNat), (.rstN, (1#1 : Bit).toNat)] :: [] ∧
    (stepDP (p4 []).current.rf.storage (p4 []).current.dm.storage 0xFFC0A183#32 1#1).toOption.isSome = true ∧
    stepDP (p4 []).current.rf.storage (p4 []).current.dm.storage 0x10002083#32 1#1 =
      .error (.addressOutOfRange 0x00000100#32) := ⟨rfl, rfl, by decide, rfl⟩
/-- `lw x3, 0xEF(x1)` addresses the last byte in range, `lw x3, 0xF0(x1)` the first byte out of it. -/
theorem witness_LwLoadsTheAddressedWord :
    (p4 [(.instr, (encodeWord (.lw 3#5 1#5 0x0EF#12 0b111#3)).toNat), (.rstN, (1#1 : Bit).toNat)]).wiring =
      Wiring.reference ∧
    (rfRead (p4 []).current.rf.storage 1#5 + (0x0EF#12 : ImmField).signExtend 32).toNat = 0xFF ∧
    (rfRead (p4 []).current.rf.storage 1#5 + (0x0F0#12 : ImmField).signExtend 32).toNat = 0x100 := ⟨rfl, by decide, by decide⟩
/-- `0x0083A223` has another `op`; `x7` is 0, so its address is 8. Word `0x10000023` addresses `0x100`. -/
theorem witness_OtherWordsChangeNoStorage :
    (0x0083A223#32 : Word).extractLsb' 0 7 ≠ 0b0000011#7 ∧
    (rfRead (p4 []).current.rf.storage ((0x0083A223#32 : Word).extractLsb' 15 5) +
      ((0x0083A223#32 : Word).extractLsb' 20 12).signExtend 32).toNat = 8 ∧
    (0x10000023#32 : Word).extractLsb' 0 7 ≠ 0b0000011#7 ∧
    (rfRead (p4 []).current.rf.storage ((0x10000023#32 : Word).extractLsb' 15 5) +
      ((0x10000023#32 : Word).extractLsb' 20 12).signExtend 32).toNat = 0x100 := by decide
theorem witness_OnlyResetChangesMemoryInTheReferenceDatapath : ∃ s t : State, s.wiring = Wiring.reference ∧
    step s = .next t ∧ t.current.dm.rstN = 1#1 :=
  ⟨p4 [(.instr, 0x0083A223), (.rstN, 1)], _, rfl, rfl, rfl⟩
/-- The clause of an all-zero memory, with a row that asks for a write directly. -/
theorem witness_OnlyResetChangesMemoryInTheReferenceDatapath_zero : ∃ s t : State, s.wiring = Wiring.reference ∧
    step s = .next t ∧ s.current.dm.storage = Memory.cleared :=
  ⟨{ offering [(.instr, 0x00402083), (.rstN, 1), (.dmWriteEnable, 1)] with wiring := Wiring.reference }, _, rfl, rfl, rfl⟩
/-- A step that fails, one that completes, and one after the end. -/
theorem witness_AluZeroConnectionChangesNothing :
    step (p4 [(.instr, 0x10002083), (.rstN, 1)]) = .fault (.addressOutOfRange 0x00000100#32) ∧
    step { p4 [] with stimulus := [] } = .refused .endOfRun ∧
    ∃ t, step (p4 [(.instr, 0xFFC0A183), (.rstN, 1)]) = .next t := ⟨rfl, rfl, _, rfl⟩
theorem witness_DecodeAndEncodeAgree : (Instr.other 0b1111111#7).wf = true ∧ decode ⟨.op7, 127⟩ = .ok (.other 0b1111111#7) ∧
    (DatapathWord.lw 31#5 31#5 0xFFF#12 0b111#3).wf = true ∧ (DatapathWord.word 0xFFFFFFFF#32).wf = true := by
  refine ⟨rfl, rfl, rfl, by decide⟩
/-- The last code that fits, and the first that does not. -/
theorem witness_EveryCodeOfEveryFieldDecodes : (Presented.mk .op7 127).wf = true ∧ (Presented.mk .op7 128).wf = false :=
  ⟨rfl, rfl⟩
/-- The family's hypothesis. -/
theorem witness_Encoding : (Instr.other 0b0000010#7).wf = true := rfl

end Sys2Proof.Tests
end

section
/-! PROOFS. The state (spec/10_state.md): what a step cannot see and what a cycle leaves alone. The lemmas about wirings
without a connection of some latency and about edits of the state that the environment's offer does not see come first. -/

namespace Sys2Proof.Machine

/-! ### Connections that are not made -/

theorem noLink_iff {l : Link} {w : Wiring} : noLink l w = true ↔ ∀ c, linkOf w c ≠ l := by
  have mem (c : Connection) : c ∈ allConnections := by cases c <;> decide
  simp only [noLink, List.all_eq_true, bne_iff_ne]
  exact ⟨fun h c => h c (mem c), fun h c _ => h c⟩

theorem noLink_direct_standAlone : noLink .direct Wiring.standAlone = true := rfl
theorem noLink_registered_standAlone : noLink .registered Wiring.standAlone = true := rfl

theorem copyDirect_of_ne {c : Connection} {s : State} (h : linkOf s.wiring c ≠ .direct) : copyDirect c s = s := by
  unfold copyDirect
  split
  case h_1 e => exact absurd e h
  all_goals rfl

/-- Where no connection has latency 0 nothing is copied within the cycle. -/
theorem copyDirects_of_noLink {s : State} (h : noLink .direct s.wiring = true) (cs : List Connection) :
    copyDirects cs s = s :=
  List.foldl_fixed' (fun c => copyDirect_of_ne (noLink_iff.1 h c)) cs

/-- When nothing is copied before an evaluation: no block has been evaluated yet (R48), or no connection has latency 1. -/
def NothingRegistered (s : State) : Prop :=
  s.hasEvaluated = false ∨ noLink .registered s.wiring = true

theorem copyRegistered_of_nothingRegistered {s : State} (h : NothingRegistered s) (c : Connection) :
    copyRegistered c s = s := by
  unfold copyRegistered
  split
  case h_1 e =>
    rcases h with he | hl
    · rw [he]; rfl
    · exact absurd e (noLink_iff.1 hl c)
  all_goals rfl

theorem copyAllRegistered_of_nothingRegistered {s : State} (h : NothingRegistered s) : copyAllRegistered s = s :=
  List.foldl_fixed' (copyRegistered_of_nothingRegistered h) allConnections

/-! ### The blocks' updates keep the wiring -/

@[simp] theorem controllerStaged_wiring (s : State) : (controllerStaged s).wiring = s.wiring := rfl
@[simp] theorem immediateStaged_wiring (s : State) : (immediateStaged s).wiring = s.wiring := rfl
@[simp] theorem rfReadPorts_wiring (s : State) : (rfReadPorts s).wiring = s.wiring := rfl
@[simp] theorem aluStaged_wiring (s : State) : (aluStaged s).wiring = s.wiring := rfl

/-! ### Edits of the state that the environment's offer does not see -/

/-- An edit of the state that commutes with everything the environment's offer does. -/
structure CommutesWithOffer (φ : State → State) : Prop where
  wiring : ∀ s, (φ s).wiring = s.wiring
  stimulus : ∀ s, (φ s).stimulus = s.stimulus
  setStimulus : ∀ s rows, { φ s with stimulus := rows } = φ { s with stimulus := rows }
  assignInput : ∀ i v s, assignInput i v (φ s) = φ (assignInput i v s)

theorem CommutesWithOffer.offerRow {φ : State → State} (h : CommutesWithOffer φ) (row : StimulusRow) (s : State) :
    offerRow row (φ s) = andThen (offerRow row s) fun u => .next (φ u) := by
  induction row generalizing s with
  | nil => rfl
  | cons p r ih =>
    obtain ⟨i, v⟩ := p
    unfold Machine.offerRow offer
    by_cases hv : v < 2 ^ inputWidth i
    · simp only [if_pos hv, andThen_next, h.assignInput, ih]
    · simp only [if_neg hv, andThen_fault]

theorem CommutesWithOffer.takeStimulus {φ : State → State} (h : CommutesWithOffer φ) (s : State) :
    takeStimulus (φ s) = andThen (takeStimulus s) fun u => .next (φ u) := by
  unfold Machine.takeStimulus
  rw [h.stimulus]
  cases s.stimulus with
  | nil =>
    simp only [h.wiring]
    split <;> rfl
  | cons row rest =>
    simp only [h.setStimulus]
    exact h.offerRow row _

/-- A step does not see such an edit if the cycle after the offer does not. -/
theorem CommutesWithOffer.step_eq {φ : State → State} (h : CommutesWithOffer φ) {s : State}
    (hc : ∀ u, Machine.takeStimulus s = .next u → cycle (φ u) = cycle u) : step (φ s) = step s := by
  unfold step
  rw [h.takeStimulus]
  cases e : Machine.takeStimulus s with
  | next u => exact hc u e
  | fault r => rfl
  | refused r => rfl

/-! ### Pending values (R44) -/

theorem commutesWithOffer_restage : CommutesWithOffer restage :=
  ⟨fun _ => rfl, fun _ => rfl, fun _ _ => rfl, fun _ _ _ => rfl⟩

/-- A cycle starts by overwriting every pending value, so doing it before changes nothing. -/
theorem step_restage (s : State) : step (restage s) = step s :=
  commutesWithOffer_restage.step_eq fun _ _ => rfl

/-- Settles O35: both states have the same `restage`, which a step does not see. -/
theorem noStepReadsAPendingValue : Obligations.NoStepReadsAPendingValue := by
  unfold Obligations.NoStepReadsAPendingValue
  intro s p
  calc step { s with pending := p }
      _ = step (restage { s with pending := p }) := (step_restage _).symm
      _ = step (restage s) := rfl
      _ = step s := step_restage s

/-! ### Output and Local cells before they are evaluated (R48)

`forget todo` blanks every current Output and Local cell, and the pending ones of the blocks still to be evaluated. Each part
of an evaluation commutes with it, and each block's update takes its block off the list; at the commit the list is empty and
the current values are overwritten, so nothing is left of what was blanked. -/

/-- The Signals with one block's Output and Local cells blanked. -/
def blankOutputs (b : Block) (g : Signals) : Signals :=
  match b with
  | .controller =>
    { g with ctrl := { g.ctrl with controlOp := 0, aluControl := 0, immSource := 0, memWrite := 0, regWrite := 0 } }
  | .signExtension => { g with se := { g.se with gatheredImm := 0, immediate := 0 } }
  | .alu => { g with alu := { g.alu with result := 0, zero := 0 } }
  | .registerFile => { g with rf := { g.rf with readData1 := 0, readData2 := 0 } }
  | .dataMemory => { g with dm := { g.dm with readData := 0 } }

/-- The Signals with some blocks' Output and Local cells blanked. -/
def blankAll (bs : List Block) (g : Signals) : Signals :=
  bs.foldr blankOutputs g

/-- The state without what the current Output and Local cells hold, and the pending ones of the blocks in `todo`. -/
def forget (todo : List Block) (s : State) : State :=
  { s with current := blankAll allBlocks s.current, pending := blankAll todo s.pending }

theorem setInput_blankOutputs (i : InputId) (v : Nat) (b : Block) (g : Signals) :
    setInput i v (blankOutputs b g) = blankOutputs b (setInput i v g) := by
  cases b <;> cases i <;> rfl

theorem setInput_blankAll (i : InputId) (v : Nat) (bs : List Block) (g : Signals) :
    setInput i v (blankAll bs g) = blankAll bs (setInput i v g) := by
  induction bs with
  | nil => rfl
  | cons b bs ih =>
    calc setInput i v (blankOutputs b (blankAll bs g))
        _ = blankOutputs b (setInput i v (blankAll bs g)) := setInput_blankOutputs i v b _
        _ = blankOutputs b (blankAll bs (setInput i v g)) := by rw [ih]

theorem readOutput_blankOutputs {o : OutputId} {b : Block} (h : outputBlock o ≠ b) (g : Signals) :
    readOutput o (blankOutputs b g) = readOutput o g := by
  cases o <;> cases b <;> simp [outputBlock, readOutput, blankOutputs] at h ⊢

theorem readOutput_blankAll {o : OutputId} {bs : List Block} (h : outputBlock o ∉ bs) (g : Signals) :
    readOutput o (blankAll bs g) = readOutput o g := by
  induction bs with
  | nil => rfl
  | cons b bs ih =>
    obtain ⟨hb, hbs⟩ := not_or.1 (mt List.mem_cons.2 h)
    exact (readOutput_blankOutputs hb _).trans (ih hbs)

/-- Blanked, two sets of Signals with the same Inputs and storages are the same. -/
theorem blankAll_eq_of_sameInputs {g h : Signals} (hi : SameInputs g h) (hrf : g.rf.storage = h.rf.storage)
    (hdm : g.dm.storage = h.dm.storage) : blankAll allBlocks g = blankAll allBlocks h := by
  simp only [blankAll, allBlocks, List.foldr, blankOutputs, hrf, hdm, hi.aluControl, hi.src1, hi.src2, hi.raw, hi.immSrc,
    hi.rfRstN, hi.address1, hi.address2, hi.address3, hi.rfWriteData, hi.rfWriteEnable, hi.dmRstN, hi.address,
    hi.dmWriteData, hi.dmWriteEnable, hi.op, hi.func3, hi.func7, hi.aluZero]

theorem assignInput_forget (todo : List Block) (i : InputId) (v : Nat) (s : State) :
    assignInput i v (forget todo s) = forget todo (assignInput i v s) := by
  simp only [assignInput, forget, setInput_blankAll]

theorem commutesWithOffer_forget (todo : List Block) : CommutesWithOffer (forget todo) :=
  ⟨fun _ => rfl, fun _ => rfl, fun _ _ => rfl, assignInput_forget todo⟩

/-- A direct connection reads its producer's pending Output, which is kept once the producer has been evaluated. -/
theorem copyDirect_forget {todo : List Block} {c : Connection} (h : outputBlock (source c) ∉ todo) (s : State) :
    copyDirect c (forget todo s) = forget todo (copyDirect c s) := by
  unfold copyDirect
  cases hl : linkOf s.wiring c with
  | direct =>
    have hread : readOutput (source c) (forget todo s).pending = readOutput (source c) s.pending :=
      readOutput_blankAll h s.pending
    simp only [show linkOf (forget todo s).wiring c = .direct from hl, hread, assignInput_forget]
  | registered => simp only [show linkOf (forget todo s).wiring c = .registered from hl]
  | environment => simp only [show linkOf (forget todo s).wiring c = .environment from hl]

theorem copyDirects_forget {todo : List Block} {cs : List Connection} (h : ∀ c ∈ cs, outputBlock (source c) ∉ todo)
    (s : State) : copyDirects cs (forget todo s) = forget todo (copyDirects cs s) := by
  induction cs generalizing s with
  | nil => rfl
  | cons c cs ih =>
    obtain ⟨hc, hcs⟩ := List.forall_mem_cons.1 h
    calc copyDirects cs (copyDirect c (forget todo s))
        _ = copyDirects cs (forget todo (copyDirect c s)) := by rw [copyDirect_forget hc]
        _ = forget todo (copyDirects cs (copyDirect c s)) := ih hcs _

theorem controllerStaged_forget (s : State) :
    controllerStaged (forget allBlocks s) = forget [.signExtension, .alu, .dataMemory, .registerFile] (controllerStaged s) :=
  rfl

theorem immediateStaged_forget (s : State) :
    immediateStaged (forget [.signExtension, .alu, .dataMemory, .registerFile] s) =
      forget [.alu, .dataMemory, .registerFile] (immediateStaged s) := rfl

theorem rfReadPorts_forget (s : State) :
    rfReadPorts (forget [.alu, .dataMemory, .registerFile] s) = forget [.alu, .dataMemory] (rfReadPorts s) := rfl

theorem aluStaged_forget (s : State) : aluStaged (forget [.alu, .dataMemory] s) = forget [.dataMemory] (aluStaged s) := rfl

theorem stageDm_forget (d : Word) (m : Memory) (s : State) :
    stageDm d m (forget [.dataMemory] s) = forget [] (stageDm d m s) := rfl

/-- Up to the Data Memory an evaluation that copies nothing before it reads no Output or Local cell it has not staged. -/
theorem beforeDataMemory_forget {s : State} (h : NothingRegistered s) :
    beforeDataMemory (forget allBlocks s) = forget [.dataMemory] (beforeDataMemory s) := by
  have hf : NothingRegistered (forget allBlocks s) := h
  unfold beforeDataMemory afterReadPorts afterController
  rw [copyAllRegistered_of_nothingRegistered h, copyAllRegistered_of_nothingRegistered hf, controllerStaged_forget,
    copyDirects_forget (by decide), immediateStaged_forget, rfReadPorts_forget, copyDirects_forget (by decide),
    aluStaged_forget, copyDirects_forget (by decide)]

/-- The Data Memory's update reads only its own Inputs and storage. -/
theorem updateDataMemory_forget (s : State) :
    updateDataMemory (forget [.dataMemory] s) = andThen (updateDataMemory s) fun d => .next (forget [] d) := by
  cases h : inRange s.current.dm.address with
  | false =>
    rw [updateDataMemory_out_of_range h]
    exact updateDataMemory_out_of_range (s := forget [.dataMemory] s) h
  | true =>
    obtain ⟨m, hm, hu⟩ := updateDataMemory_in_range h
    obtain ⟨m', hm', hu'⟩ := updateDataMemory_in_range (s := forget [.dataMemory] s) h
    have hmm : m' = m := Except.ok.inj (hm'.symm.trans hm)
    rw [hu, hu', hmm]
    rfl

/-- An evaluation that copies nothing before it gives, but for the current cells, what it gives without them. -/
theorem evaluate_forget {s : State} (h : NothingRegistered s) :
    evaluate (forget allBlocks s) = andThen (evaluate s) fun e => .next (forget [] e) := by
  rw [evaluate_eq, evaluate_eq, beforeDataMemory_forget h, updateDataMemory_forget]
  cases updateDataMemory (beforeDataMemory s) with
  | next d =>
    simp only [andThen_next]
    rw [copyDirects_forget (by simp)]
    rfl
  | fault r => rfl
  | refused r => rfl

/-- The commit overwrites every current cell. -/
theorem commit_forget_nil (s : State) : commit (forget [] s) = commit s := rfl

theorem cycle_forget {s : State} (h : NothingRegistered s) : cycle (forget allBlocks s) = cycle s := by
  have hr : restage (forget allBlocks s) = forget allBlocks (restage s) := rfl
  unfold cycle
  rw [hr, evaluate_forget (show NothingRegistered (restage s) from h)]
  cases evaluate (restage s) with
  | next e => exact congrArg _ (commit_forget_nil e)
  | fault r => rfl
  | refused r => rfl

/-- The offer changes neither the wiring nor whether the blocks have been evaluated. -/
theorem nothingRegistered_of_takeStimulus {s u : State} (h : NothingRegistered s) (hu : takeStimulus s = .next u) :
    NothingRegistered u := by
  obtain ⟨-, hio⟩ := takeStimulus_eq_next hu
  rwa [NothingRegistered, hio.wiring, hio.hasEvaluated]

theorem step_forget {s : State} (h : NothingRegistered s) : step (forget allBlocks s) = step s :=
  (commutesWithOffer_forget allBlocks).step_eq fun _ hu => cycle_forget (nothingRegistered_of_takeStimulus h hu)

/-- Settles O36: without their Output and Local cells the two states are the same, and a step does not see those cells. -/
theorem noStepReadsAnUnevaluatedOutput : Obligations.NoStepReadsAnUnevaluatedOutput := by
  unfold Obligations.NoStepReadsAnUnevaluatedOutput
  intro s g h hi hrf hdm
  have hs : forget allBlocks { s with current := g } = forget allBlocks s := by
    simp only [forget, blankAll_eq_of_sameInputs hi hrf hdm]
  calc step { s with current := g }
      _ = step (forget allBlocks { s with current := g }) := (step_forget (s := { s with current := g }) h).symm
      _ = step (forget allBlocks s) := by rw [hs]
      _ = step s := step_forget h

/-! ### Inputs of blocks that stand alone (R21, R293) -/

/-- Without connections an evaluation is the five updates, none of which stages an Input. -/
theorem sameInputs_evaluated {s : State} (hd : noLink .direct s.wiring = true) (hr : noLink .registered s.wiring = true)
    (m : Memory) : SameInputs (evaluated s m).pending s.pending := by
  have hb : beforeDataMemory s = aluStaged (rfReadPorts (immediateStaged (controllerStaged s))) := by
    unfold beforeDataMemory afterReadPorts afterController
    rw [copyAllRegistered_of_nothingRegistered (.inr hr)]
    simp [copyDirects_of_noLink, hd]
  unfold evaluated
  rw [hb, copyDirects_of_noLink (by exact hd)]
  constructor <;> rfl

/-- Settles O31: the committed Inputs are those the evaluation started from. -/
theorem standAloneCycleChangesNoInput : Obligations.StandAloneCycleChangesNoInput := by
  unfold Obligations.StandAloneCycleChangesNoInput
  intro s u t hu hw ht
  obtain ⟨u', hu', hc⟩ := step_eq_next ht
  obtain rfl : u = u' := Host.Outcome.next.inj (hu.symm.trans hu')
  obtain ⟨-, m, -, rfl⟩ := cycle_eq_next hc
  exact sameInputs_evaluated (s := restage u) (hw ▸ noLink_direct_standAlone) (hw ▸ noLink_registered_standAlone) m

/-! ### The construction state (R290, R299) -/

/-- Settles O41: every Signal is 0, and 0 is what each of the Controller's constant controls is (R227). -/
theorem resetMeetsTheInvariant : Obligations.ResetMeetsTheInvariant where
  committed := rfl
  zeroRegister := rfl
  memory := Memory.wf_cleared
  immediate := rfl
  aluControl := rfl
  immSource := rfl
  memWrite := rfl
  controlOp := rfl

/-- Settles O42: registers, memory words, Outputs and Inputs in turn, then the two Locals and both `rst_n`. -/
theorem constructionStateIsAllZero : Obligations.ConstructionStateIsAllZero := by
  unfold Obligations.ConstructionStateIsAllZero
  refine ⟨fun k h => ?registers, fun w => Memory.lookup_cleared w, fun o => ?outputs, fun i => ?inputs, rfl, rfl, rfl, rfl, rfl⟩
  case registers => exact Vector.getElem_replicate h
  case outputs => cases o <;> rfl
  case inputs => cases i <;> rfl

/-- Settles O43: the model runs the cycle; both clocked blocks clear storages that were 0 already. -/
theorem firstCycleFromConstructionIsAResetCycle : Obligations.FirstCycleFromConstructionIsAResetCycle := by
  unfold Obligations.FirstCycleFromConstructionIsAResetCycle
  exact ⟨rfl, rfl, rfl, _, rfl, rfl, rfl⟩

end Sys2Proof.Machine
end

section
/-! PROOFS. The Data Memory (spec/20_memory.md, spec/44_data_memory.md): what a completing cycle does to it under any
wiring, what a run of cycles makes of one word, and when a cycle of blocks that stand alone fails. -/

namespace Sys2Proof.Machine

/-! ### Up to the Data Memory's own update nothing is staged for it -/

/-- The Data Memory's storage is `m`, and its pending Signals are still its current ones. -/
structure DmUnstaged (m : Memory) (s : State) : Prop where
  pending : s.pending.dm = s.current.dm
  storage : s.current.dm.storage = m

/-- What assigning an Input does to the Data Memory's Signals does not depend on the other blocks. -/
theorem setInput_dm_congr {g h : Signals} (e : g.dm = h.dm) (i : InputId) (v : Nat) :
    (setInput i v g).dm = (setInput i v h).dm := by
  cases i <;> simp only [setInput, setInstr, e]

theorem dmUnstaged_restage (s : State) : DmUnstaged s.current.dm.storage (restage s) := ⟨rfl, rfl⟩

namespace DmUnstaged

variable {m : Memory} {s : State}

/-- An Input is given its value in both phases. -/
theorem assignInput (h : DmUnstaged m s) (i : InputId) (v : Nat) : DmUnstaged m (assignInput i v s) :=
  ⟨setInput_dm_congr h.pending i v, (setInput_dm_storage i v s.current).trans h.storage⟩

theorem copyDirect (h : DmUnstaged m s) (c : Connection) : DmUnstaged m (copyDirect c s) := by
  unfold Machine.copyDirect
  split
  case h_1 => exact h.assignInput _ _
  all_goals exact h

theorem copyRegistered (h : DmUnstaged m s) (c : Connection) : DmUnstaged m (copyRegistered c s) := by
  unfold Machine.copyRegistered
  split
  case h_1 =>
    split
    · exact h.assignInput _ _
    · exact h
  all_goals exact h

theorem copyDirects (h : DmUnstaged m s) (cs : List Connection) : DmUnstaged m (copyDirects cs s) :=
  List.foldlRecOn cs _ h fun _ ht c _ => ht.copyDirect c

theorem copyAllRegistered (h : DmUnstaged m s) : DmUnstaged m (copyAllRegistered s) :=
  List.foldlRecOn allConnections _ h fun _ ht c _ => ht.copyRegistered c

theorem controllerStaged (h : DmUnstaged m s) : DmUnstaged m (controllerStaged s) := ⟨h.pending, h.storage⟩
theorem immediateStaged (h : DmUnstaged m s) : DmUnstaged m (immediateStaged s) := ⟨h.pending, h.storage⟩
theorem rfReadPorts (h : DmUnstaged m s) : DmUnstaged m (rfReadPorts s) := ⟨h.pending, h.storage⟩
theorem aluStaged (h : DmUnstaged m s) : DmUnstaged m (aluStaged s) := ⟨h.pending, h.storage⟩

/-- No connection and no other block's evaluation stages anything for the Data Memory. -/
theorem beforeDataMemory (h : DmUnstaged m s) : DmUnstaged m (beforeDataMemory s) :=
  have afterReadPorts : DmUnstaged m (afterReadPorts s) :=
    (h.copyAllRegistered.controllerStaged.copyDirects _).immediateStaged.rfReadPorts
  (afterReadPorts.copyDirects _).aluStaged.copyDirects _

end DmUnstaged

/-! ### One cycle -/

/-- What the Register File's connections copy after the Data Memory's update leaves its staged Signals alone. -/
theorem evaluated_pending_dm (s : State) (m : Memory) :
    (evaluated s m).pending.dm = { (beforeDataMemory s).pending.dm with
      readData := Memory.lookup (beforeDataMemory s).current.dm.storage (wordIndex (beforeDataMemory s).current.dm.address)
      storage := m } := by
  simp [evaluated, rfStage, copyDirects, stageDm_pending_dm]

/-- What a completing cycle from `s` to `t` is for the Data Memory (R202), in the Input values the cycle used: the address
is in range, the read is of the storage before the edge, and the storage after it is that of the clock edge. -/
structure DmCycle (s t : State) : Prop where
  inRange : inRange t.current.dm.address = true
  read : t.current.dm.readData = Memory.lookup s.current.dm.storage (wordIndex t.current.dm.address)
  edge : dmNext { t.current.dm with storage := s.current.dm.storage } = .ok t.current.dm.storage

/-- Every completing cycle is one, whatever the connections are: its update reads the Inputs that are then committed. -/
theorem dmCycle_of_step {s t : State} (h : step s = .next t) : DmCycle s t := by
  obtain ⟨u, hu, hc⟩ := step_eq_next h
  obtain ⟨hr, m, hm, rfl⟩ := cycle_eq_next hc
  have hs : u.current.dm.storage = s.current.dm.storage := (takeStimulus_eq_next hu).2.dm
  obtain ⟨hpending, hstorage⟩ := (dmUnstaged_restage u).beforeDataMemory
  have ht := evaluated_pending_dm (restage u) m
  rw [hpending] at ht
  refine ⟨?inRange, ?read, ?edge⟩
  case inRange => rw [commit_current, ht]; exact hr
  case read => rw [commit_current, ht, ← hs, ← hstorage]
  case edge => rw [commit_current, ht, ← hs, ← hstorage]; exact hm

/-! ### One word -/

/-- A clock edge keeps the canonical form. -/
theorem wf_of_dmNext {g : DmSignals} {m : Memory} (hr : inRange g.address = true) (hwf : Memory.wf g.storage = true)
    (hm : dmNext g = .ok m) : Memory.wf m = true := by
  rcases dmNext_inRange hr with ⟨-, e⟩ | ⟨-, -, -, e⟩ | ⟨-, -, e⟩ <;> obtain rfl := Except.ok.inj (hm.symm.trans e)
  case inl => exact Memory.wf_cleared
  case inr.inl => exact Memory.wf_store hwf (of_decide_eq_true hr) g.writeData
  case inr.inr => exact hwf

/-- What a clock edge makes of a word is `dmEffect` (R73, R74): clear, store or hold. -/
theorem lookup_of_dmNext {g : DmSignals} {m : Memory} (hr : inRange g.address = true) (hwf : Memory.wf g.storage = true)
    (hm : dmNext g = .ok m) (w : Nat) : Memory.lookup m w = dmEffect w (Memory.lookup g.storage w) g := by
  simp only [dmEffect, ← wordAligned_iff, ← wordIndex_eq]
  rcases dmNext_inRange hr with ⟨hrst, e⟩ | ⟨hrst, hwe, hal, e⟩ | ⟨hrst, hno, e⟩ <;>
    obtain rfl := Except.ok.inj (hm.symm.trans e)
  case inl => rw [if_pos hrst]; rfl
  case inr.inl => rw [if_neg hrst, Memory.lookup_store hwf]; simp [hwe, hal, eq_comm]
  case inr.inr =>
    have hnone : ¬ (g.writeEnable = 1#1 ∧ wordAligned g.address = true ∧ wordIndex g.address = w) := by
      rintro ⟨hwe, hal, -⟩
      rcases hno with h | h
      · exact h hwe
      · simp [hal] at h
    rw [if_neg hrst, if_neg hnone]

theorem DmCycle.wf {s t : State} (h : DmCycle s t) (hwf : Memory.wf s.current.dm.storage = true) :
    Memory.wf t.current.dm.storage = true :=
  wf_of_dmNext (g := { t.current.dm with storage := s.current.dm.storage }) h.inRange hwf h.edge

theorem DmCycle.lookup {s t : State} (h : DmCycle s t) (hwf : Memory.wf s.current.dm.storage = true) (w : Nat) :
    Memory.lookup t.current.dm.storage w = dmEffect w (Memory.lookup s.current.dm.storage w) t.current.dm :=
  lookup_of_dmNext (g := { t.current.dm with storage := s.current.dm.storage }) h.inRange hwf h.edge w

/-! ### A run of cycles (R73, R74) -/

/-- Settles O25, by induction on the cycles before the read: each makes of the word what `dmEffect` says and keeps the
canonical form, and the read is of what they have made of it. -/
theorem readReturnsTheMostRecentWrite : Obligations.ReadReturnsTheMostRecentWrite := by
  unfold Obligations.ReadReturnsTheMostRecentWrite
  intro s earlier t later hwf hrun
  induction earlier generalizing s with
  | nil =>
    obtain ⟨hstep, -⟩ := hrun
    rw [← wordIndex_eq]
    exact (dmCycle_of_step hstep).read
  | cons r rs ih =>
    obtain ⟨hstep, hrest⟩ := hrun
    have hcycle := dmCycle_of_step hstep
    rw [List.foldl_cons, ← hcycle.lookup hwf]
    exact ih r (hcycle.wf hwf) hrest

/-! ### Failing cycles of blocks that stand alone (R207) -/

/-- Without connections, what precedes the Data Memory's update is the Register File's read ports and the updates of the
other three blocks. -/
theorem beforeDataMemory_of_noLink {s : State} (hd : noLink .direct s.wiring = true)
    (hr : noLink .registered s.wiring = true) :
    beforeDataMemory s = aluStaged (rfReadPorts (immediateStaged (controllerStaged s))) := by
  unfold beforeDataMemory afterReadPorts afterController
  rw [copyAllRegistered_of_nothingRegistered (.inr hr)]
  simp [copyDirects_of_noLink, hd]

/-- Standing alone, the address the Data Memory's update reads is the one the environment has offered. -/
theorem beforeDataMemory_dm_of_standAlone {u : State} (hw : u.wiring = Wiring.standAlone) :
    (beforeDataMemory (restage u)).current.dm = u.current.dm := by
  rw [beforeDataMemory_of_noLink (s := restage u) (hw ▸ noLink_direct_standAlone) (hw ▸ noLink_registered_standAlone)]
  rfl

/-- A step is the cycle after the environment's offer. -/
theorem step_of_takeStimulus {s u : State} (h : takeStimulus s = .next u) : step s = cycle u := by
  unfold step
  rw [h, andThen_next]

/-- Settles O26: a cycle fails exactly when the address its Data Memory reads is out of range, and standing alone that is
the address offered. -/
theorem outOfRangeAddressFailsTheCycle : Obligations.OutOfRangeAddressFailsTheCycle := by
  unfold Obligations.OutOfRangeAddressFailsTheCycle
  intro s u hu hw
  rw [step_of_takeStimulus hu]
  have hrange := inRange_iff u.current.dm.address
  have hcycle := cycle_cases u
  rw [beforeDataMemory_dm_of_standAlone hw] at hcycle
  rcases hcycle with ⟨hout, hfault⟩ | ⟨hin, m, -, hnext⟩
  · refine ⟨fun _ => hfault, fun hlt => ?_⟩
    rw [hrange.2 hlt] at hout
    cases hout
  · exact ⟨fun hge => absurd (hrange.1 hin) (Nat.not_lt.2 hge), fun _ => ⟨_, hnext⟩⟩

end Sys2Proof.Machine
end

section
/-! PROOFS. Encodings (spec/30_encoding.md): what the decoder answers, that the encoder inverts it for rows and for words, and
that a bare number of the opcode table, presented for the next step, is the row that step runs. -/

namespace Sys2Proof

/-! ### The decoder: the one check of the number's width, then the table of its field -/

/-- The row of a presented code, read from the table of its field. -/
def tableRow (p : Presented) : Instr :=
  match p.port with
  | .op7 => decodeOp (BitVec.ofNat 7 p.code)
  | .aluControl3 => decodeAluControl (BitVec.ofNat 3 p.code)
  | .immSrc2 => decodeImmSrc (BitVec.ofNat 2 p.code)
  | .controlOp2 => decodeControlOp (BitVec.ofNat 2 p.code)

theorem presented_wf_iff (p : Presented) : p.wf = true ↔ p.code < 2 ^ p.port.width := decide_eq_true_iff

/-- A code that fits its field decodes to the row of its table (R104). -/
theorem decode_of_wf {p : Presented} (h : p.wf = true) : decode p = .ok (tableRow p) := by
  unfold decode tableRow
  rw [if_pos ((presented_wf_iff p).1 h)]
  cases p.port <;> rfl

/-- A number too wide for its field is refused by name (R130). -/
theorem decode_of_not_wf {p : Presented} (h : p.wf = false) : decode p = .error (.codeTooWide p.port p.code) := by
  unfold decode
  exact if_neg fun hlt => by simp [(presented_wf_iff p).2 hlt] at h

theorem decode_eq_ok_iff {p : Presented} {i : Instr} : decode p = .ok i ↔ p.wf = true ∧ tableRow p = i := by
  cases h : p.wf
  · simp [decode_of_not_wf h]
  · simp [decode_of_wf h]

theorem decodeOp_load : decodeOp Config.loadOpcode = .load := if_pos rfl

theorem decodeOp_of_ne {op : Opcode} (h : op ≠ Config.loadOpcode) : decodeOp op = .other op := if_neg h

/-! ### The encoder and the tables of the four fields are inverse -/

theorem encode_decodeOp (op : Opcode) : encode (decodeOp op) = ⟨.op7, op.toNat⟩ := by
  by_cases h : op = Config.loadOpcode
  · rw [h, decodeOp_load]; rfl
  · rw [decodeOp_of_ne h]; rfl

theorem encode_decodeAluControl (c : AluCode) : encode (decodeAluControl c) = ⟨.aluControl3, c.toNat⟩ := by
  revert c; decide

theorem encode_decodeImmSrc (c : ImmCode) : encode (decodeImmSrc c) = ⟨.immSrc2, c.toNat⟩ := by
  revert c; decide

theorem encode_decodeControlOp (c : CtrlCode) : encode (decodeControlOp c) = ⟨.controlOp2, c.toNat⟩ := by
  revert c; decide

/-- The code of the row read from a code that fits its field is that code. -/
theorem encode_tableRow {p : Presented} (h : p.wf = true) : encode (tableRow p) = p := by
  obtain ⟨port, code⟩ := p
  have hcode : code < 2 ^ port.width := (presented_wf_iff _).1 h
  have fits (n : Nat) (hn : port.width = n) : (BitVec.ofNat n code).toNat = code :=
    (BitVec.toNat_ofNat _ _).trans (Nat.mod_eq_of_lt (hn ▸ hcode))
  cases port
  case op7 => exact (encode_decodeOp _).trans (congrArg _ (fits 7 rfl))
  case aluControl3 => exact (encode_decodeAluControl _).trans (congrArg _ (fits 3 rfl))
  case immSrc2 => exact (encode_decodeImmSrc _).trans (congrArg _ (fits 2 rfl))
  case controlOp2 => exact (encode_decodeControlOp _).trans (congrArg _ (fits 2 rfl))

/-- The code of every row fits its field. -/
theorem encode_wf (i : Instr) : (encode i).wf = true := by
  cases i
  case other op => exact (presented_wf_iff _).2 op.isLt
  all_goals rfl

/-- A row's code stands on the row's own field (R112). -/
theorem encode_port (i : Instr) : (encode i).port = i.port := by
  cases i <;> rfl

theorem tableRow_encode {i : Instr} (h : i.wf = true) : tableRow (encode i) = i := by
  cases i
  case other op =>
    have hne : op ≠ Config.loadOpcode := bne_iff_ne.1 h
    calc tableRow (encode (.other op))
      _ = decodeOp (BitVec.ofNat 7 op.toNat) := rfl
      _ = .other op := by rw [BitVec.ofNat_toNat, BitVec.setWidth_eq, decodeOp_of_ne hne]
  all_goals rfl

theorem tableRow_port {p : Presented} (h : p.wf = true) : (tableRow p).port = p.port := by
  rw [← encode_port, encode_tableRow h]

/-- No table lists an OTHER row with the load opcode. -/
theorem tableRow_wf (p : Presented) : (tableRow p).wf = true := by
  obtain ⟨port, code⟩ := p
  cases port
  case op7 =>
    show (decodeOp (BitVec.ofNat 7 code)).wf = true
    by_cases h : BitVec.ofNat 7 code = Config.loadOpcode
    · rw [h, decodeOp_load]; rfl
    · rw [decodeOp_of_ne h]; exact bne_iff_ne.2 h
  case aluControl3 => exact (by decide : ∀ c, (decodeAluControl c).wf = true) (BitVec.ofNat 3 code)
  case immSrc2 => exact (by decide : ∀ c, (decodeImmSrc c).wf = true) (BitVec.ofNat 2 code)
  case controlOp2 => exact (by decide : ∀ c, (decodeControlOp c).wf = true) (BitVec.ofNat 2 code)

/-! ### The words of the reference datapath -/

/-- The shifts and ORs of the encoder are the layout `imm[11:0] rs1 func3 rd 0000011` (R100). -/
theorem encodeWord_lw (rd rs1 : RegIdx) (imm : ImmField) (func3 : BitVec 3) :
    encodeWord (.lw rd rs1 imm func3) = imm ++ rs1 ++ func3 ++ rd ++ Config.loadOpcode := by
  have h := BitVec.setWidth_eq (imm ++ rs1 ++ func3 ++ rd ++ Config.loadOpcode)
  simp only [BitVec.setWidth_append_eq_shiftLeft_setWidth_or, BitVec.shiftLeft_or_distrib, ← BitVec.shiftLeft_add] at h
  exact h

/-- Cutting the layout of a word gives back its fields (R99). -/
theorem extractLsb'_layout (imm : ImmField) (rs1 : RegIdx) (func3 : BitVec 3) (rd : RegIdx) (op : Opcode) :
    (imm ++ rs1 ++ func3 ++ rd ++ op).extractLsb' 0 7 = op ∧ (imm ++ rs1 ++ func3 ++ rd ++ op).extractLsb' 7 5 = rd ∧
    (imm ++ rs1 ++ func3 ++ rd ++ op).extractLsb' 12 3 = func3 ∧
    (imm ++ rs1 ++ func3 ++ rd ++ op).extractLsb' 15 5 = rs1 ∧
    (imm ++ rs1 ++ func3 ++ rd ++ op).extractLsb' 20 12 = imm := by
  simp [BitVec.extractLsb'_append_eq_right, BitVec.extractLsb'_append_eq_of_le, -Nat.reduceAdd]

/-- A word is laid out from its fields (R99). -/
theorem layout_extractLsb' (w : Word) :
    w.extractLsb' 20 12 ++ w.extractLsb' 15 5 ++ w.extractLsb' 12 3 ++ w.extractLsb' 7 5 ++ w.extractLsb' 0 7 = w := by
  simp only [BitVec.extractLsb'_append_extractLsb'_eq_extractLsb']
  exact BitVec.extractLsb'_eq_self

theorem decodeWord_of_load {w : Word} (h : w.extractLsb' 0 7 = Config.loadOpcode) :
    decodeWord w = .lw (w.extractLsb' 7 5) (w.extractLsb' 15 5) (w.extractLsb' 20 12) (w.extractLsb' 12 3) := if_pos h

theorem decodeWord_of_ne {w : Word} (h : w.extractLsb' 0 7 ≠ Config.loadOpcode) : decodeWord w = .word w := if_neg h

/-- A word laid out as a load decodes to that load. -/
theorem decodeWord_layout (rd rs1 : RegIdx) (imm : ImmField) (func3 : BitVec 3) :
    decodeWord (imm ++ rs1 ++ func3 ++ rd ++ Config.loadOpcode) = .lw rd rs1 imm func3 := by
  obtain ⟨hop, hrd, hfunc3, hrs1, himm⟩ := extractLsb'_layout imm rs1 func3 rd Config.loadOpcode
  rw [decodeWord_of_load hop, hrd, hrs1, himm, hfunc3]

theorem decodeWord_encodeWord {d : DatapathWord} (h : d.wf = true) : decodeWord (encodeWord d) = d := by
  cases d
  case lw rd rs1 imm func3 => rw [encodeWord_lw, decodeWord_layout]
  case word w => exact decodeWord_of_ne (bne_iff_ne.1 h)

theorem decodeWord_wf (w : Word) : (decodeWord w).wf = true := by
  by_cases h : w.extractLsb' 0 7 = Config.loadOpcode
  · rw [decodeWord_of_load h]; rfl
  · rw [decodeWord_of_ne h]; exact bne_iff_ne.2 h

theorem encodeWord_decodeWord (w : Word) : encodeWord (decodeWord w) = w := by
  by_cases h : w.extractLsb' 0 7 = Config.loadOpcode
  · rw [decodeWord_of_load h, encodeWord_lw, ← h, layout_extractLsb']
  · rw [decodeWord_of_ne h]; rfl

/-- Settles O53: rows by the tables of the four fields, words by the layout of R99 and R100. -/
theorem decodeAndEncodeAgree : Obligations.DecodeAndEncodeAgree := by
  unfold Obligations.DecodeAndEncodeAgree
  refine ⟨fun i hi => ?row, fun p i hp => ?code, fun d hd => decodeWord_encodeWord hd,
    fun w => ⟨decodeWord_wf w, encodeWord_decodeWord w⟩⟩
  case row => exact decode_eq_ok_iff.2 ⟨encode_wf i, tableRow_encode hi⟩
  case code =>
    obtain ⟨hwf, rfl⟩ := decode_eq_ok_iff.1 hp
    exact ⟨tableRow_wf p, encode_tableRow hwf⟩

/-- Settles O56: each code and the word are evaluated. -/
theorem tableCodesDecodeAsWritten : Obligations.TableCodesDecodeAsWritten := by
  unfold Obligations.TableCodesDecodeAsWritten
  exact ⟨rfl, rfl, rfl, rfl, rfl, rfl, rfl, rfl, by decide⟩

end Sys2Proof

namespace Sys2Proof.Machine

/-! ### The rows that codes and bare numbers are read as run (R104, R112) -/

/-- No row's meaning ends in a fault or a refusal. -/
theorem exec_completes (i : Instr) (s : State) : ∃ t, exec i s = .next t := by
  cases i <;> exact ⟨_, rfl⟩

/-- Settles O54: the row is that of the field's table. -/
theorem everyCodeOfEveryFieldDecodes : Obligations.EveryCodeOfEveryFieldDecodes := by
  unfold Obligations.EveryCodeOfEveryFieldDecodes
  exact fun p => ⟨fun h => ⟨tableRow p, decode_of_wf h, tableRow_port h, exec_completes _⟩, decode_of_not_wf⟩

/-! ### A bare number of the opcode table as the next row (log entries 2 and 3) -/

/-- The four ways a bare number can be read. -/
theorem tablePresented_cases {nbits w : Nat} {p : Presented} (h : tablePresented nbits w = some p) :
    p = ⟨.aluControl3, w⟩ ∨ p = ⟨.immSrc2, w⟩ ∨ (nbits = 7 ∧ p = ⟨.op7, w⟩) ∨
    (nbits ≠ 7 ∧ w < 2 ^ 32 ∧ p = ⟨.op7, w % 2 ^ 7⟩) := by
  unfold tablePresented at h
  split_ifs at h with h3 h2 h7 hload halu hword <;> cases h
  · exact .inl rfl
  · exact .inr (.inl rfl)
  · exact .inr (.inr (.inl ⟨h7, rfl⟩))
  · exact .inr (.inr (.inr ⟨h7, by omega, by rw [hload]; rfl⟩))
  · exact .inl rfl
  · exact .inr (.inr (.inr ⟨h7, hword, rfl⟩))

/-- A row decoded from a bare number is that of the code the number is read as. -/
theorem decodeTableWord_eq_some {nbits w : Nat} {i : Instr} (h : decodeTableWord nbits w = some i) :
    ∃ p, tablePresented nbits w = some p ∧ p.wf = true ∧ tableRow p = i := by
  unfold decodeTableWord at h
  split at h
  case h_2 => cases h
  case h_1 p hp =>
    cases hwf : p.wf
    · rw [decode_of_not_wf hwf] at h; cases h
    · rw [decode_of_wf hwf] at h; exact ⟨p, hp, hwf, Option.some.inj h⟩

/-- The `op` of a word offered as `instr` is the number's low seven bits (R99). -/
theorem cutWord_ofNat_op (w : Nat) : (cutWord (BitVec.ofNat 32 w)).op = BitVec.ofNat 7 (w % 2 ^ 7) := by
  apply BitVec.eq_of_toNat_eq
  simp [cutWord, BitVec.extractLsb'_toNat]

/-- The row `i` is the one its block reads in `u`, from an Input that is the environment's (no connection drives `op`). -/
def IsNextRow (i : Instr) (u : State) : Prop :=
  (i.port = .op7 ∧ opRow u = i) ∨
    (i.port = .aluControl3 ∧ aluRow u = i ∧ u.wiring.aluControl = .environment) ∨
    (i.port = .immSrc2 ∧ immRow u = i ∧ u.wiring.immSrc = .environment)

/-- What presenting a bare number does when it decodes to row `i`: the next row to be offered gives it to the Input `j`, which
it fits, the wiring is `φ` of what it was, and once the row has been taken `i` is the next row. -/
structure Presents (nbits w : Nat) (i : Instr) (j : InputId) (φ : Wiring → Wiring) : Prop where
  presented : ∀ s : State, s.withFetchWord nbits w = presentRow [(j, w)] { s with wiring := φ s.wiring }
  fits : w < 2 ^ inputWidth j
  ne_address : j ≠ .address
  standAlone : φ Wiring.standAlone = Wiring.standAlone
  row : ∀ s : State, IsNextRow i (assignInput j w { s with wiring := φ s.wiring })

theorem presents_of_decodeTableWord {nbits w : Nat} {i : Instr} (h : decodeTableWord nbits w = some i) :
    ∃ j φ, Presents nbits w i j φ := by
  obtain ⟨p, hp, hwf, rfl⟩ := decodeTableWord_eq_some h
  have hport := tableRow_port hwf
  have hfits := (presented_wf_iff p).1 hwf
  rcases tablePresented_cases hp with rfl | rfl | ⟨h7, rfl⟩ | ⟨h7, hw, rfl⟩
  case inl => exact ⟨.aluControl, release .aluControl, {
    presented := fun s => by simp only [State.withFetchWord, presentTableWord, hp]
    fits := hfits
    ne_address := nofun
    standAlone := rfl
    row := fun _ => .inr (.inl ⟨hport, rfl, rfl⟩) }⟩
  case inr.inl => exact ⟨.immSrc, release .immSrc, {
    presented := fun s => by simp only [State.withFetchWord, presentTableWord, hp]
    fits := hfits
    ne_address := nofun
    standAlone := rfl
    row := fun _ => .inr (.inr ⟨hport, rfl, rfl⟩) }⟩
  case inr.inr.inl => exact ⟨.op, id, {
    presented := fun s => by simp only [State.withFetchWord, presentTableWord, hp, if_pos h7, id]
    fits := hfits
    ne_address := nofun
    standAlone := rfl
    row := fun _ => .inl ⟨hport, rfl⟩ }⟩
  case inr.inr.inr => exact ⟨.instr, id, {
    presented := fun s => by simp only [State.withFetchWord, presentTableWord, hp, if_neg h7, id]
    fits := hw
    ne_address := nofun
    standAlone := rfl
    row := fun _ => .inl ⟨hport, congrArg decodeOp (cutWord_ofNat_op w)⟩ }⟩

/-- A presented row of one value that fits its Input is taken by giving it to that Input; the rows behind it stay. -/
theorem takeStimulus_presentRow {j : InputId} {v : Nat} (h : v < 2 ^ inputWidth j) (s : State) :
    takeStimulus (presentRow [(j, v)] s) = .next (assignInput j v s) := by
  show andThen (offer j v s) (offerRow []) = _
  unfold offer
  rw [if_pos h]
  rfl

/-- From the construction state any such row but one for the address is followed by a cycle that completes: the address
is still 0. -/
theorem step_presentRow_reset {j : InputId} {v : Nat} (h : v < 2 ^ inputWidth j) (hj : j ≠ .address) :
    ∃ t, step (presentRow [(j, v)] State.reset) = .next t := by
  have haddress : (setInput j v Signals.construction).dm.address = 0 := by
    cases j
    case address => exact absurd rfl hj
    all_goals rfl
  refine (outOfRangeAddressFailsTheCycle _ _ (takeStimulus_presentRow h _) rfl).2 ?_
  show (setInput j v Signals.construction).dm.address.toNat < 0x100
  rw [haddress]
  decide

/-- Settles O39: whichever Input the number is presented on. -/
theorem presentedTableWordIsTheNextRow : Obligations.PresentedTableWordIsTheNextRow := by
  unfold Obligations.PresentedTableWordIsTheNextRow
  intro s nbits w i h
  obtain ⟨j, φ, hpresents⟩ := presents_of_decodeTableWord h
  have htake := takeStimulus_presentRow hpresents.fits { s with wiring := φ s.wiring }
  rw [hpresents.presented, hpresents.presented]
  refine ⟨⟨_, htake, rfl, setInput_rf_storage _ _ _, setInput_dm_storage _ _ _, hpresents.row s⟩, ?completes⟩
  case completes =>
    have hreset : ({ State.reset with wiring := φ State.reset.wiring } : State) = State.reset :=
      congrArg (fun w => { State.reset with wiring := w }) hpresents.standAlone
    rw [hreset]
    exact step_presentRow_reset hpresents.fits hpresents.ne_address

end Sys2Proof.Machine
end

section
/-! PROOFS. The update engine (spec/40_update_engine.md): what a row and a block's update can do, why the order of
evaluation does not matter, what a connection carries, what an evaluation leaves alone, and the invariant. -/

namespace Sys2Proof.Machine

/-! ### What a row can do (R121, R125) -/

/-- A row stages both stages of the Controller, its second stage alone, the ALU's Outputs, or the immediate, by the selector
field it is a code of. -/
theorem exec_cases (i : Instr) (s : State) :
    (i.port = .op7 ∧ ∃ regWrite, exec i s =
      .next (driveAluControl 0b000#3 (driveFirstStage regWrite 0b00#2 0#1 0b00#2 s))) ∨
    (i.port = .controlOp2 ∧ ∃ c, exec i s = .next (driveAluControl c s)) ∨
    (i.port = .aluControl3 ∧ ∃ r, exec i s = .next (driveAlu r s)) ∨
    (i.port = .immSrc2 ∧ ∃ g, exec i s = .next (driveImmediate g s)) :=
  match i with
  | .load | .other _ => .inl ⟨rfl, _, rfl⟩
  | .ctrlopAdd | .ctrlopForcezero01 | .ctrlopForcezero10 | .ctrlopForcezero11 => .inr (.inl ⟨rfl, _, rfl⟩)
  | .aluAdd | .aluZero001 | .aluZero010 | .aluZero011 | .aluZero100 | .aluZero101 | .aluZero110 | .aluZero111 =>
    .inr (.inr (.inl ⟨rfl, _, rfl⟩))
  | .immUpper12 | .immZero01 | .immZero10 | .immZero11 => .inr (.inr (.inr ⟨rfl, _, rfl⟩))

/-- Settles O13: each of the four things a row can do stages Outputs and Locals of its own block only. -/
theorem everyRowCompletesWithinItsBlock : Obligations.EveryRowCompletesWithinItsBlock := by
  unfold Obligations.EveryRowCompletesWithinItsBlock
  intro i s
  rcases exec_cases i s with ⟨hport, _, h⟩ | ⟨hport, _, h⟩ | ⟨hport, _, h⟩ | ⟨hport, _, h⟩ <;>
    refine ⟨_, h, rfl, rfl, rfl, rfl, rfl, rfl, by constructor <;> rfl, ?_, ?_, ?_, ?_⟩ <;>
    simp [hport, driveAluControl_pending_ctrl]

/-! ### What a block's update can do (R121) -/

/-- The Signals `g` with one block's Outputs, Locals and storage taken from `v`. -/
def putCells (b : Block) (v g : Signals) : Signals :=
  match b with
  | .controller =>
    { g with ctrl := { g.ctrl with
        controlOp := v.ctrl.controlOp, aluControl := v.ctrl.aluControl, immSource := v.ctrl.immSource
        memWrite := v.ctrl.memWrite, regWrite := v.ctrl.regWrite } }
  | .signExtension => { g with se := { g.se with gatheredImm := v.se.gatheredImm, immediate := v.se.immediate } }
  | .alu => { g with alu := { g.alu with result := v.alu.result, zero := v.alu.zero } }
  | .registerFile =>
    { g with rf := { g.rf with readData1 := v.rf.readData1, readData2 := v.rf.readData2, storage := v.rf.storage } }
  | .dataMemory => { g with dm := { g.dm with readData := v.dm.readData, storage := v.dm.storage } }

/-- Two blocks have no such cell in common. -/
theorem putCells_comm {a b : Block} (h : a ≠ b) (v w g : Signals) :
    putCells a v (putCells b w g) = putCells b w (putCells a v g) := by
  cases a <;> cases b <;> simp [putCells] at h ⊢

theorem readOutput_putCells {o : OutputId} {b : Block} (h : outputBlock o = b) (v g : Signals) :
    readOutput o (putCells b v g) = readOutput o v := by
  subst h; cases o <;> rfl

/-- The state after the Data Memory's update, where `m` is the storage of its clock edge. -/
def dmStaged (m : Memory) (s : State) : State :=
  stageDm (Memory.lookup s.current.dm.storage (wordIndex s.current.dm.address)) m s

theorem updateDataMemory_of_dmNext {s : State} {m : Memory} (h : inRange s.current.dm.address = true)
    (hm : dmNext s.current.dm = .ok m) :
    updateDataMemory s = .next (dmStaged m s) := by
  obtain ⟨m', hm', hu⟩ := updateDataMemory_in_range h
  rwa [Except.ok.inj (hm.symm.trans hm')]

/-- Whatever is pending, an update puts the same values into its own block's cells and changes nothing else; or it is the
Data Memory's and fails with the same fault. -/
theorem updateBlock_cases (b : Block) (s : State) :
    (∃ v, ∀ p, updateBlock b { s with pending := p } = .next { s with pending := putCells b v p }) ∨
    (b = .dataMemory ∧ ∃ f, ∀ p, updateBlock b { s with pending := p } = .fault f) := by
  cases b with
  | controller => exact .inl ⟨(controllerStaged s).pending, fun _ => updateBlock_controller _⟩
  | signExtension => exact .inl ⟨(immediateStaged s).pending, fun _ => updateBlock_signExtension _⟩
  | alu => exact .inl ⟨(aluStaged s).pending, fun _ => updateBlock_alu _⟩
  | registerFile => exact .inl ⟨(rfStage (rfReadPorts s)).pending, fun _ => updateBlock_registerFile _⟩
  | dataMemory =>
    cases h : inRange s.current.dm.address with
    | false =>
      exact .inr ⟨rfl, .addressOutOfRange s.current.dm.address,
        fun p => updateDataMemory_out_of_range (s := { s with pending := p }) h⟩
    | true =>
      obtain ⟨m, hm, -⟩ := updateDataMemory_in_range h
      exact .inl ⟨(dmStaged m s).pending,
        fun p => updateDataMemory_of_dmNext (s := { s with pending := p }) h hm⟩

/-- Settles O14: the values put into the block's cells, or the fault, are the same whatever is pending. -/
theorem updatesReadCurrentAndWritePending : Obligations.UpdatesReadCurrentAndWritePending := by
  unfold Obligations.UpdatesReadCurrentAndWritePending
  intro b s p
  rcases updateBlock_cases b s with ⟨v, h⟩ | ⟨-, f, h⟩ <;> rw [h p, show updateBlock b s = _ from h s.pending]
  case inl =>
    refine ⟨by simp, fun t ht => ?_⟩
    obtain rfl := Host.Outcome.next.inj ht
    refine ⟨rfl, _, rfl, fun o ho => ?_, ?_, ?_, ?_, ?_⟩
    · rw [readOutput_putCells ho, readOutput_putCells ho]
    all_goals rintro rfl; rfl
  case inr => exact ⟨fun _ => .rfl, fun t ht => by cases ht⟩

/-! ### What an evaluation leaves alone until the commit (R122) -/

theorem inputsOnly_copyDirect (c : Connection) (s : State) : InputsOnly s (copyDirect c s) := by
  unfold copyDirect
  split
  case h_1 => exact inputsOnly_assignInput _ _ s
  all_goals exact .refl s

theorem inputsOnly_copyRegistered (c : Connection) (s : State) : InputsOnly s (copyRegistered c s) := by
  unfold copyRegistered
  split
  case h_1 =>
    split
    · exact inputsOnly_assignInput _ _ s
    · exact .refl s
  all_goals exact .refl s

theorem inputsOnly_copyDirects (cs : List Connection) (s : State) : InputsOnly s (copyDirects cs s) :=
  List.foldlRecOn cs _ (.refl s) fun t ht c _ => ht.trans (inputsOnly_copyDirect c t)

theorem inputsOnly_copyAllRegistered (s : State) : InputsOnly s (copyAllRegistered s) :=
  List.foldlRecOn allConnections _ (.refl s) fun t ht c _ => ht.trans (inputsOnly_copyRegistered c t)

@[simp] theorem copyAllRegistered_wiring (s : State) : (copyAllRegistered s).wiring = s.wiring :=
  (inputsOnly_copyAllRegistered s).wiring

/-- Staging pending values changes no current one. -/
theorem InputsOnly.stage {s t : State} (h : InputsOnly s t) (p : Signals) : InputsOnly s { t with pending := p } :=
  ⟨h.wiring, h.hasEvaluated, h.outputs, h.gatheredImm, h.controlOp, h.rf, h.dm⟩

theorem InputsOnly.copyDirects {s t : State} (h : InputsOnly s t) (cs : List Connection) :
    InputsOnly s (copyDirects cs t) :=
  h.trans (inputsOnly_copyDirects cs t)

theorem inputsOnly_beforeDataMemory (s : State) : InputsOnly s (beforeDataMemory s) :=
  have afterReadPorts : InputsOnly s (afterReadPorts s) :=
    (((inputsOnly_copyAllRegistered s).stage _).copyDirects [.immSrc]).stage _
  ((afterReadPorts.copyDirects [.aluControl, .src1, .src2]).stage _).copyDirects _

/-- The state whose clock edge the Register File takes: the Data Memory is evaluated and the connections are all copied. -/
def beforeEdge (s : State) (m : Memory) : State :=
  copyDirects [.regWrite, .rfWriteData] (dmStaged m (beforeDataMemory s))

theorem evaluated_eq (s : State) (m : Memory) : evaluated s m = rfStage (beforeEdge s m) := rfl

theorem inputsOnly_beforeEdge (s : State) (m : Memory) : InputsOnly s (beforeEdge s m) :=
  ((inputsOnly_beforeDataMemory s).stage _).copyDirects _

theorem inputsOnly_evaluated (s : State) (m : Memory) : InputsOnly s (evaluated s m) :=
  evaluated_eq s m ▸ (inputsOnly_beforeEdge s m).stage _

/-- A next state of an evaluation is the evaluated state with the storage of the Data Memory's clock edge. -/
theorem evaluate_eq_next {s e : State} (h : evaluate s = .next e) : ∃ m, e = evaluated s m := by
  rw [evaluate_eq] at h
  cases hr : inRange (beforeDataMemory s).current.dm.address with
  | false => rw [updateDataMemory_out_of_range hr] at h; cases h
  | true =>
    obtain ⟨m, -, hu⟩ := updateDataMemory_in_range hr
    rw [hu] at h
    exact ⟨m, (Host.Outcome.next.inj h).symm⟩

/-- Settles O34: the evaluation changes current Inputs only, and the cycle commits what it has staged. -/
theorem commitIsTheOnlyChangeOfState : Obligations.CommitIsTheOnlyChangeOfState := by
  unfold Obligations.CommitIsTheOnlyChangeOfState
  intro s e h
  have hcycle : cycle s = .next (commit e) := by unfold cycle; rw [h, andThen_next]
  obtain ⟨m, rfl⟩ := evaluate_eq_next h
  obtain ⟨-, -, houtputs, hgathered, hcontrol, hrf, hdm⟩ := inputsOnly_evaluated (restage s) m
  exact ⟨houtputs, hgathered, hcontrol, hrf, hdm, _, hcycle, rfl, rfl⟩

/-! ### The order of evaluation (R124) -/

/-- The updates of two blocks commute: each reads current values only and has cells of its own, and at most one of them can
fail. -/
theorem updateBlock_comm (a b : Block) (s : State) :
    andThen (updateBlock a s) (updateBlock b) = andThen (updateBlock b s) (updateBlock a) := by
  by_cases hab : a = b
  · rw [hab]
  rcases updateBlock_cases a s with ⟨v, ha⟩ | ⟨hda, f, ha⟩ <;>
    rcases updateBlock_cases b s with ⟨w, hb⟩ | ⟨hdb, g, hb⟩
  case inr.inr => exact absurd (hda.trans hdb.symm) hab
  all_goals
    rw [show updateBlock a s = _ from ha s.pending, show updateBlock b s = _ from hb s.pending]
    simp only [andThen_next, andThen_fault, ha, hb, putCells_comm hab]

theorem andThen_assoc (o : Host.Outcome State Fault Refusal) (f g : State → Host.Outcome State Fault Refusal) :
    andThen (andThen o f) g = andThen o fun s => andThen (f s) g := by
  cases o <;> rfl

/-- Updating the same blocks in another order gives the same outcome. -/
theorem updateBlocks_perm {bs bs' : List Block} (h : bs.Perm bs') (s : State) :
    updateBlocks bs s = updateBlocks bs' s := by
  induction h generalizing s with
  | nil => rfl
  | cons b _ ih => exact congrArg (andThen (updateBlock b s)) (funext ih)
  | swap a b bs =>
    calc andThen (updateBlock b s) (fun u => andThen (updateBlock a u) (updateBlocks bs))
        _ = andThen (andThen (updateBlock b s) (updateBlock a)) (updateBlocks bs) := (andThen_assoc _ _ _).symm
        _ = andThen (andThen (updateBlock a s) (updateBlock b)) (updateBlocks bs) := by rw [updateBlock_comm]
        _ = andThen (updateBlock a s) (fun u => andThen (updateBlock b u) (updateBlocks bs)) := andThen_assoc _ _ _
  | trans _ _ ih ih' => exact (ih s).trans (ih' s)

/-- Without direct connections, what precedes the Data Memory's update is the registered connections, the Register File's
read ports and the updates of the other three blocks. -/
theorem beforeDataMemory_of_noDirect {s : State} (h : noLink .direct s.wiring = true) :
    beforeDataMemory s = rfReadPorts (aluStaged (immediateStaged (controllerStaged (copyAllRegistered s)))) := by
  unfold beforeDataMemory afterReadPorts afterController
  simp only [copyDirects_of_noLink, h, controllerStaged_wiring, immediateStaged_wiring, rfReadPorts_wiring,
    aluStaged_wiring, copyAllRegistered_wiring]
  rfl

/-- The five updates in the order of R246: only the Data Memory's can fail. -/
theorem updateBlocks_allBlocks (s : State) :
    updateBlocks allBlocks s =
      andThen (updateDataMemory (aluStaged (immediateStaged (controllerStaged s)))) fun d =>
        .next (rfStage (rfReadPorts d)) := by
  simp only [allBlocks, updateBlocks, updateBlock_controller, updateBlock_signExtension, updateBlock_alu,
    updateBlock_registerFile, andThen_next]
  rfl

/-- Without direct connections an evaluation is the registered connections and the five updates in the order of R246: the
Register File's read ports may as well be evaluated after the Data Memory. -/
theorem evaluate_of_noDirect {s : State} (h : noLink .direct s.wiring = true) :
    evaluate s = updateBlocks allBlocks (copyAllRegistered s) := by
  rw [evaluate_eq, beforeDataMemory_of_noDirect h, updateBlocks_allBlocks]
  generalize hu : aluStaged (immediateStaged (controllerStaged (copyAllRegistered s))) = u
  have hw : u.wiring = s.wiring := by rw [← hu]; exact copyAllRegistered_wiring s
  rcases updateBlock_cases .dataMemory u with ⟨v, hdm⟩ | ⟨-, f, hdm⟩ <;>
    rw [show updateDataMemory u = _ from hdm u.pending, show updateDataMemory (rfReadPorts u) = _ from hdm _]
  case inl => rw [andThen_next, copyDirects_of_noLink (hw ▸ h)]; rfl
  case inr => rfl

/-- Settles O33: the order can be exchanged for that of R246, in which the five updates are the cycle's evaluation. -/
theorem evaluationOrderDoesNotMatter : Obligations.EvaluationOrderDoesNotMatter := by
  unfold Obligations.EvaluationOrderDoesNotMatter
  intro s order h hperm
  rw [updateBlocks_perm hperm, ← evaluate_of_noDirect (s := restage s) h]
  rfl

/-! ### The rows a step runs -/

/-- Settles O38: the step's own definition, with the updates of the combinational blocks as the rows of their codes. -/
theorem stepRunsTheDecodedRows : Obligations.StepRunsTheDecodedRows := by
  unfold Obligations.StepRunsTheDecodedRows
  refine ⟨fun s u hu => step_of_takeStimulus hu, fun s f hf => ?fault, fun s r hr => ?refused⟩
  case fault => unfold step; rw [hf, andThen_fault]
  case refused => unfold step; rw [hr, andThen_refused]

/-! ### What a connection carries (R132, R240, R245) -/

/-- Before the evaluation a registered connection gives its consumer the producer's committed value, once there is one. -/
theorem consumerValue_copyAllRegistered (c : Connection) (s : State) :
    consumerValue c (copyAllRegistered s).pending =
      if linkOf s.wiring c = .registered ∧ s.hasEvaluated = true then readOutput (source c) s.current
      else consumerValue c s.pending := by
  by_cases h : linkOf s.wiring c = .registered ∧ s.hasEvaluated = true
  · rw [if_pos h]
    cases c <;> simp only [linkOf] at h <;>
      simp [copyAllRegistered, allConnections, consumerValue, readOutput, source, h]
  · rw [if_neg h]
    cases c <;> simp only [linkOf] at h <;> simp [copyAllRegistered, allConnections, consumerValue, h]

/-- During the evaluation a direct connection gives its consumer what its producer has staged, and neither is changed
afterwards; any other connection's consumer keeps its value. Connection by connection: its own copy is the only part of the
evaluation that touches its consumer, and its producer's update the only one that touches its producer. -/
theorem consumerValue_evaluated (c : Connection) (s : State) (m : Memory) :
    consumerValue c (evaluated s m).pending =
      if linkOf s.wiring c = .direct then readOutput (source c) (evaluated s m).pending
      else consumerValue c (copyAllRegistered s).pending := by
  cases c <;>
    simp [evaluated, beforeDataMemory, afterReadPorts, afterController, controllerStaged, immediateStaged, rfReadPorts,
      aluStaged, rfStage, copyDirects, consumerValue, readOutput, source, linkOf, apply_ite BitVec.toNat]

/-- Settles O30: the consumer's value is committed as the two phases of copying have left it. -/
theorem connectionsCarryTheirProducersValue : Obligations.ConnectionsCarryTheirProducersValue := by
  unfold Obligations.ConnectionsCarryTheirProducersValue
  intro s u t hu ht c
  obtain ⟨-, hio⟩ := takeStimulus_eq_next hu
  obtain ⟨-, m, -, rfl⟩ := cycle_eq_next ((step_of_takeStimulus hu).symm.trans ht)
  have hc := consumerValue_evaluated c (restage u) m
  rw [consumerValue_copyAllRegistered] at hc
  simp only [restage_wiring, restage_hasEvaluated, restage_current, restage_pending, hio.wiring, hio.hasEvaluated,
    hio.outputs] at hc
  rw [commit_current, hc]
  exact ⟨fun hl => by simp [hl], fun hl he => by simp [hl, he], fun hl he => by simp [hl, he], fun hl => by simp [hl]⟩

/-! ### Blocks that stand alone (R131) -/

/-- The ALU's Signals after a cycle with the Inputs of `g`. -/
def aluAfter (g : AluSignals) : AluSignals :=
  { g with
    result := (outALU g.aluControl g.src1 g.src2).1
    zero := zeroFlag (outALU g.aluControl g.src1 g.src2).1 }

/-- The Sign-Extension unit's Signals after a cycle with the Inputs of `g`. -/
def seAfter (g : SeSignals) : SeSignals :=
  { g with gatheredImm := gatherSE g.raw g.immSrc, immediate := signExtendImm (gatherSE g.raw g.immSrc) }

/-- The Controller's Signals after a cycle with the Inputs of `g` (R227). -/
def ctrlAfter (g : CtrlSignals) : CtrlSignals :=
  { g with
    regWrite := if g.op = Config.loadOpcode then 1#1 else 0#1
    immSource := 0b00#2, memWrite := 0#1, controlOp := 0b00#2, aluControl := 0b000#3 }

/-- The Register File's Signals after a cycle with the Inputs and the storage of `g`. -/
def rfAfter (g : RfSignals) : RfSignals :=
  { g with
    readData1 := rfRead g.storage g.address1, readData2 := rfRead g.storage g.address2, storage := rfNext g }

/-- The Data Memory's Signals after a cycle with the Inputs and the storage of `g`, where `m` is the storage of the
clock edge. -/
def dmAfter (m : Memory) (g : DmSignals) : DmSignals :=
  { g with readData := Memory.lookup g.storage (wordIndex g.address), storage := m }

/-- What a cycle from `u` to `t` is when the blocks stand alone: the Signals of each after it are its own function of its own
Signals before. -/
structure StandAloneCycle (u t : State) : Prop where
  alu : t.current.alu = aluAfter u.current.alu
  se : t.current.se = seAfter u.current.se
  ctrl : t.current.ctrl = ctrlAfter u.current.ctrl
  rf : t.current.rf = rfAfter u.current.rf
  dm : ∃ m, dmNext u.current.dm = .ok m ∧ t.current.dm = dmAfter m u.current.dm

/-- Without connections an evaluation is the five updates. -/
theorem evaluated_of_noLink {s : State} (hd : noLink .direct s.wiring = true) (hr : noLink .registered s.wiring = true)
    (m : Memory) :
    evaluated s m =
      rfStage (dmStaged m (aluStaged (rfReadPorts (immediateStaged (controllerStaged s))))) := by
  rw [evaluated_eq, beforeEdge, beforeDataMemory_of_noLink hd hr, copyDirects_of_noLink (by exact hd)]

theorem standAloneCycle_of_step {s u t : State} (hu : takeStimulus s = .next u) (hw : u.wiring = Wiring.standAlone)
    (ht : step s = .next t) : StandAloneCycle u t := by
  obtain ⟨-, m, hm, rfl⟩ := cycle_eq_next ((step_of_takeStimulus hu).symm.trans ht)
  rw [beforeDataMemory_dm_of_standAlone hw] at hm
  rw [evaluated_of_noLink (s := restage u) (hw ▸ noLink_direct_standAlone) (hw ▸ noLink_registered_standAlone)]
  exact ⟨rfl, rfl, rfl, rfl, m, hm, rfl⟩

/-- Settles O32: what a block's function takes from before the cycle is the block's Inputs and storage, no Output cell. -/
theorem standAloneBlocksDoNotInfluenceEachOther : Obligations.StandAloneBlocksDoNotInfluenceEachOther := by
  unfold Obligations.StandAloneBlocksDoNotInfluenceEachOther
  intro s u t s' u' t' hu hu' hw hw' ht ht'
  obtain ⟨halu, hse, hctrl, hrf, m, hm, hdm⟩ := standAloneCycle_of_step hu hw ht
  obtain ⟨halu', hse', hctrl', hrf', m', hm', hdm'⟩ := standAloneCycle_of_step hu' hw' ht'
  refine ⟨fun hcode h1 h2 => ?alu, fun hraw hcode => ?se, fun hop => ?ctrl, fun hrfs => ?rf, fun hdms => ?dm⟩
  case alu => rw [halu, halu']; simp only [aluAfter, hcode, h1, h2]
  case se => rw [hse, hse']; simp only [seAfter, hraw, hcode]
  case ctrl => rw [hctrl, hctrl']; simp only [ctrlAfter, hop, and_self]
  case rf =>
    rw [hrf, hrf']
    exact (congrArg rfAfter hrfs :)
  case dm =>
    have hedge : dmNext u.current.dm = dmNext u'.current.dm := (congrArg dmNext hdms :)
    rw [hdm, hdm', ← Except.ok.inj (hm.symm.trans (hedge.trans hm'))]
    exact (congrArg (dmAfter m) hdms :)

/-! ### The invariant -/

/-- The Sign-Extension unit's Local and Output stay as its update has staged them. -/
theorem evaluated_pending_immediate (s : State) (m : Memory) :
    (evaluated s m).pending.se.immediate = signExtendImm (evaluated s m).pending.se.gatheredImm := by
  simp [evaluated, beforeDataMemory, afterReadPorts, immediateStaged, rfReadPorts, aluStaged, rfStage, copyDirects]

/-- The Controller's Local and Outputs stay as its update has staged them (R227). -/
theorem evaluated_pending_ctrl (s : State) (m : Memory) :
    (evaluated s m).pending.ctrl.aluControl = 0b000#3 ∧ (evaluated s m).pending.ctrl.immSource = 0b00#2 ∧
    (evaluated s m).pending.ctrl.memWrite = 0#1 ∧ (evaluated s m).pending.ctrl.controlOp = 0b00#2 := by
  simp [evaluated, beforeDataMemory, afterReadPorts, afterController, controllerStaged, immediateStaged, rfReadPorts,
    aluStaged, rfStage, copyDirects]

/-- No clock edge gives `rf[0]` another value than 0 (R46). -/
theorem rfNext_zero {g : RfSignals} (h : g.storage[0] = 0) : (rfNext g)[0] = 0 := by
  rcases rfNext_cases g with ⟨-, e⟩ | ⟨-, -, e⟩ | ⟨-, -, e⟩ <;> rw [e]
  case inl => exact Vector.getElem_replicate _
  case inr.inl => rw [rfWrite_storage_zero, h]
  case inr.inr => exact h

/-- Settles O40: the Data Memory's edge keeps the canonical form, the Register File's keeps `rf[0]`, and what the
combinational blocks stage is committed. -/
theorem stepKeepsTheInvariant : Obligations.StepKeepsTheInvariant := by
  unfold Obligations.StepKeepsTheInvariant
  intro s t hinv ht
  have hmemory := (dmCycle_of_step ht).wf hinv.memory
  obtain ⟨u, hu, hc⟩ := step_eq_next ht
  obtain ⟨-, m, -, rfl⟩ := cycle_eq_next hc
  have hrf := (inputsOnly_beforeEdge (restage u) m).rf.trans (takeStimulus_eq_next hu).2.rf
  obtain ⟨haluControl, himmSource, hmemWrite, hcontrolOp⟩ := evaluated_pending_ctrl (restage u) m
  exact {
    committed := rfl
    zeroRegister := by
      simp only [commit_current, evaluated_eq, rfStage, stageRf_pending_rf_storage]
      exact rfNext_zero (hrf ▸ hinv.zeroRegister)
    memory := hmemory
    immediate := (evaluated_pending_immediate (restage u) m).trans (signExtendImm_eq _)
    aluControl := haluControl
    immSource := himmSource
    memWrite := hmemWrite
    controlOp := hcontrolOp }

end Sys2Proof.Machine
end

section
/-! PROOFS. The blocks' functions (spec/40_update_engine.md R127) and the ALU's rows (spec/41_alu.md): what a completing cycle
under any wiring commits for each block, that this is the block's `out` and `next`, and what each `alu_control` code stages. -/

namespace Sys2Proof.Machine

/-! ### The clock edges are the spec's step functions (R182, R202) -/

theorem rfNext_eq_nextRF (g : RfSignals) :
    rfNext g = nextRF g.storage g.rstN g.address3 g.writeData g.writeEnable := by
  unfold nextRF
  rcases rfNext_cases g with ⟨hrst, e⟩ | ⟨hrst, hwe, e⟩ | ⟨hrst, hwe, e⟩ <;> rw [e]
  case inl => rw [if_pos hrst]; rfl
  case inr.inl => by_cases h0 : g.address3 = 0#5 <;> simp [rfWrite, hrst, hwe, h0]
  case inr.inr => simp [hrst, hwe]

/-- On an address in range `step_DM` answers the word read and the storage of the clock edge. -/
theorem stepDM_of_dmNext {g : DmSignals} {m : Memory} (hr : inRange g.address = true) (hm : dmNext g = .ok m) :
    stepDM g.storage g.rstN g.address g.writeData g.writeEnable =
      .ok (Memory.lookup g.storage (wordIndex g.address), m) := by
  have hindex : ¬ Config.memWords ≤ (g.address >>> 2).toNat := Nat.not_le.2 (of_decide_eq_true hr)
  have haligned : g.address.extractLsb' 0 2 = 0b00#2 ↔ wordAligned g.address = true := beq_iff_eq.symm
  unfold stepDM
  rw [if_neg hindex, ← wordIndex]
  rcases dmNext_inRange hr with ⟨hrst, e⟩ | ⟨hrst, hwe, ha, e⟩ | ⟨hrst, hno, e⟩ <;>
    obtain rfl := Except.ok.inj (hm.symm.trans e)
  case inl => rw [if_pos hrst]; rfl
  case inr.inl => rw [if_neg hrst, if_pos ⟨hwe, haligned.2 ha⟩]
  case inr.inr =>
    have hnone : ¬ (g.writeEnable = 1#1 ∧ g.address.extractLsb' 0 2 = 0b00#2) := by
      rintro ⟨hwe, ha⟩
      simp [hwe, haligned.1 ha] at hno
    rw [if_neg hrst, if_neg hnone]

/-! ### What a cycle commits (R127)

An Input is given its value in both phases, and no Input is touched after a part of a block's update has used it (`alu_zero`
comes after the Controller, which ignores it; R221). So what the evaluation has staged for a block is, in the end, the block's
own function of the Signals that are then current for it: its Inputs of the cycle and its storage before the edge. -/

/-- Every block's Signals after a cycle with the Inputs and the storages of `g`, where `m` is the storage of the Data
Memory's clock edge. -/
def signalsAfter (m : Memory) (g : Signals) : Signals where
  alu := aluAfter g.alu
  se := seAfter g.se
  rf := rfAfter g.rf
  dm := dmAfter m g.dm
  ctrl := ctrlAfter g.ctrl

theorem eq_signalsAfter {m : Memory} {g h : Signals} (halu : h.alu = aluAfter g.alu) (hse : h.se = seAfter g.se)
    (hrf : h.rf = rfAfter g.rf) (hdm : h.dm = dmAfter m g.dm) (hctrl : h.ctrl = ctrlAfter g.ctrl) :
    h = signalsAfter m g := by
  rw [signalsAfter, ← halu, ← hse, ← hrf, ← hdm, ← hctrl]

/-- A registered connection changes the current and the pending value of its consumer alike. -/
theorem copyRegistered_restage (c : Connection) (s : State) :
    copyRegistered c (restage s) = restage (copyRegistered c s) := by
  unfold copyRegistered
  cases hl : linkOf s.wiring c <;> cases he : s.hasEvaluated <;>
    simp only [restage_wiring, restage_hasEvaluated, hl, he] <;> rfl

theorem copyAllRegistered_restage (s : State) : copyAllRegistered (restage s) = restage (copyAllRegistered s) :=
  List.foldl_hom restage (fun t c => copyRegistered_restage c t)

/-- Block by block: up to its update its pending Signals are its current ones, and after it only Inputs are written, in both. -/
theorem evaluated_restage_pending (s : State) (m : Memory) :
    (evaluated (restage s) m).pending = signalsAfter m (evaluated (restage s) m).current := by
  simp only [evaluated_eq, beforeEdge, beforeDataMemory, afterReadPorts, afterController, copyAllRegistered_restage,
    controllerStaged, immediateStaged, rfReadPorts, aluStaged, dmStaged, rfStage]
  apply eq_signalsAfter
  case halu => simp [copyDirects, aluAfter, driveAlu_pending_alu]
  case hse => simp [copyDirects, seAfter, driveImmediate_pending_se]
  case hrf => simp [copyDirects, rfAfter, stageRf_pending_rf, driveReadPorts_pending_rf]
  case hdm => simp [copyDirects, dmAfter, stageDm_pending_dm]
  case hctrl =>
    by_cases hop : (copyAllRegistered s).current.ctrl.op = Config.loadOpcode <;>
      simp [copyDirects, ctrlAfter, driveAluControl_pending_ctrl, driveFirstStage_pending_ctrl, hop]

/-- Whatever the connections are, a completing cycle commits every block's function of some Signals `g` with the storage from
before the edge. -/
theorem signalsAfter_of_step {s t : State} (h : step s = .next t) :
    ∃ m g, t.current = signalsAfter m g ∧ g.rf.storage = s.current.rf.storage := by
  obtain ⟨u, hu, hc⟩ := step_eq_next h
  obtain ⟨-, m, -, rfl⟩ := cycle_eq_next hc
  exact ⟨m, (evaluated (restage u) m).current, evaluated_restage_pending u m,
    (inputsOnly_evaluated (restage u) m).rf.trans (takeStimulus_eq_next hu).2.rf⟩

/-- Settles O29: the committed Signals are the five functions' values, whose Inputs they still hold; the Register File's edge
is `next_RF` and the Data Memory's cycle `step_DM`. -/
theorem everyCycleMeetsTheBlockFunctions : Obligations.EveryCycleMeetsTheBlockFunctions := by
  unfold Obligations.EveryCycleMeetsTheBlockFunctions
  intro s t h
  have hdm := dmCycle_of_step h
  have hstep := stepDM_of_dmNext (g := { t.current.dm with storage := s.current.dm.storage }) hdm.inRange hdm.edge
  obtain ⟨m, g, ht, hrf⟩ := signalsAfter_of_step h
  refine ⟨?alu, ?se, ?ctrl, ?read1, ?read2, ?edge, ?dm⟩
  case dm => rw [hdm.read]; exact hstep
  case edge => rw [ht, ← hrf]; exact rfNext_eq_nextRF g.rf
  case read1 => rw [ht, ← hrf]; rfl
  case read2 => rw [ht, ← hrf]; rfl
  all_goals rw [ht]; rfl

/-! ### The ALU (spec/41_alu.md) -/

theorem zeroFlag_eq_one_iff (r : Word) : zeroFlag r = 1#1 ↔ r = 0x00000000#32 := by
  unfold zeroFlag
  by_cases h : r = 0x00000000#32 <;> simp [h]

theorem outALU_add (a b : Word) : outALU 0b000#3 a b = (a + b, zeroFlag (a + b)) := rfl

/-- `out_ALU` has the one flag of its result (R146). -/
theorem outALU_snd (c : AluCode) (a b : Word) : (outALU c a b).2 = zeroFlag (outALU c a b).1 := rfl

/-- Settles O3: the update under any code is `aluStaged`, and a sum is 0 exactly for negated operands. -/
theorem aluUpdateIsOutALU : Obligations.AluUpdateIsOutALU := by
  unfold Obligations.AluUpdateIsOutALU
  intro s
  refine ⟨updateBlock_alu s, ?zero, fun hadd => ?add⟩
  case zero => rw [outALU_snd, zeroFlag_eq_one_iff]
  case add => rw [hadd, outALU_add, zeroFlag_eq_one_iff]; exact add_eq_zero_iff_eq_neg'

theorem exec_aluAdd (s : State) :
    exec .aluAdd s = .next (driveAlu (s.current.alu.src1 + s.current.alu.src2) s) := rfl

/-- Settles O4: `+` on words is the sum of either reading, modulo `2 ^ 32`. -/
theorem aluSumIsModularForBothSignings : Obligations.AluSumIsModularForBothSignings := by
  unfold Obligations.AluSumIsModularForBothSignings
  intro s
  refine ⟨_, exec_aluAdd s, BitVec.toNat_add _ _, ?signed, rfl, zeroFlag_eq_one_iff _⟩
  case signed =>
    rw [driveAlu_pending_alu_result, BitVec.toInt_add]
    exact Int.dvd_bmod_sub_self

/-- Settles O1: the row's one staging, and the sum of words as a sum of numbers. -/
theorem aluAddRowStagesTheSum : Obligations.AluAddRowStagesTheSum := by
  unfold Obligations.AluAddRowStagesTheSum
  exact ⟨rfl, fun s => ⟨exec_aluAdd s, BitVec.toNat_add _ _⟩⟩

/-- Settles O2: the other codes are seven, and each of their rows forces zero. -/
theorem unassignedAluRowsForceZero : Obligations.UnassignedAluRowsForceZero := by
  unfold Obligations.UnassignedAluRowsForceZero
  refine ⟨by decide, fun s i hi => ?_⟩
  have hforce : exec i s = .next (forceZero s) := by
    fin_cases hi <;> rfl
  exact hforce

end Sys2Proof.Machine
end

section
/-! PROOFS. The Sign-Extension unit (spec/42_sign_extension.md): what each `imm_src` stages, and which words the immediate
can be. The rows' one staging is restated with Lean's `signExtend`, whose signed reading is the field's. -/

namespace Sys2Proof.Machine

/-! ### What the unit stages (R162 to R165) -/

theorem exec_immUpper12 (s : State) :
    exec .immUpper12 s = .next (driveImmediate (upper12 s.current.se.raw) s) := rfl

/-- `out_SE` is the sign extension of the gathered field (R165). -/
theorem outSE_eq_signExtendImm (raw : Raw) (immSrc : ImmCode) :
    outSE raw immSrc = signExtendImm (gatherSE raw immSrc) := rfl

/-- Settles O5: the row stages the field and its extension by OR, which is the sign extension. -/
theorem immUpper12RowSignExtends : Obligations.ImmUpper12RowSignExtends := by
  unfold Obligations.ImmUpper12RowSignExtends
  refine ⟨rfl, fun s => ?_⟩
  rw [exec_immUpper12, driveImmediate, signExtendImm_eq]
  rfl

/-- Settles O7: the update under any code is `immediateStaged`, and `out_SE` extends the field that it gathers. -/
theorem signExtensionUpdateIsOutSE : Obligations.SignExtensionUpdateIsOutSE := by
  unfold Obligations.SignExtensionUpdateIsOutSE
  intro s
  rw [updateBlock_signExtension, immediateStaged, driveImmediate, ← outSE_eq_signExtendImm]

/-- A zero field has a zero immediate (R163). -/
theorem signExtendImm_zero : signExtendImm 0x000#12 = 0x00000000#32 := by decide

/-- Settles O6: the other codes are three, and each of their rows stages a zero field, whose immediate is 0. -/
theorem unassignedImmRowsStageZero : Obligations.UnassignedImmRowsStageZero := by
  unfold Obligations.UnassignedImmRowsStageZero
  refine ⟨by decide, fun s i hi => ?_⟩
  have hzero : exec i s = .next (zeroImmediate s) := by
    fin_cases hi <;> rfl
  rw [hzero, zeroImmediate, driveImmediate, signExtendImm_zero]

/-! ### The range of the immediate (R166) -/

/-- The signed immediate is the signed field. -/
theorem toInt_signExtendImm (g : ImmField) : (signExtendImm g).toInt = g.toInt := by
  rw [signExtendImm_eq]
  exact BitVec.toInt_signExtend_of_le (by decide)

/-- From bit 11 up the immediate repeats the field's sign. -/
theorem getLsbD_signExtendImm_of_le (g : ImmField) {k : Nat} (h11 : 11 ≤ k) (h32 : k < 32) :
    (signExtendImm g).getLsbD k = g.msb := by
  rw [signExtendImm_eq, BitVec.getLsbD_signExtend, decide_eq_true h32, Bool.true_and]
  split
  case isTrue h12 => rw [BitVec.msb_eq_getLsbD_last, show k = 12 - 1 by omega]
  case isFalse => rfl

/-- The signed readings a 12-bit field can have. -/
theorem toInt_immField_mem (g : ImmField) : -2048 ≤ g.toInt ∧ g.toInt ≤ 2047 :=
  ⟨BitVec.le_toInt g, Int.le_of_lt_add_one (BitVec.toInt_lt (x := g))⟩

/-- The immediates are the words whose signed reading a 12-bit field can have. -/
theorem exists_signExtendImm_eq_iff (v : Word) :
    (∃ g, signExtendImm g = v) ↔ -2048 ≤ v.toInt ∧ v.toInt ≤ 2047 := by
  constructor
  · rintro ⟨g, rfl⟩
    rw [toInt_signExtendImm]
    exact toInt_immField_mem g
  · intro ⟨hlo, hhi⟩
    refine ⟨BitVec.ofInt 12 v.toInt, BitVec.eq_of_toInt_eq ?_⟩
    rw [toInt_signExtendImm]
    exact BitVec.toInt_ofInt_eq_self (by decide) hlo (Int.lt_add_one_of_le hhi)

/-- The two ranges of R166 are one range of the signed reading. -/
theorem toInt_mem_iff_toNat_mem (v : Word) :
    (-2048 ≤ v.toInt ∧ v.toInt ≤ 2047) ↔ (v.toNat ≤ 0x7FF ∨ 0xFFFFF800 ≤ v.toNat) := by
  have hlt : v.toNat < 2 ^ 32 := v.isLt
  rw [BitVec.toInt_eq_toNat_cond]
  split <;> omega

/-- Every field is gathered from some `raw`: the one with the field in bits 24..13. -/
theorem upper12_surjective : Function.Surjective upper12 := by
  intro g
  refine ⟨g.setWidth 25 <<< 13, BitVec.eq_of_getLsbD_eq fun k hk => ?_⟩
  have hk25 : 13 + k < 25 := by omega
  simp [upper12, hk, hk25]

/-- Settles O8: the immediate is read as the field is, repeats its sign from bit 11 up, and every field can be gathered. -/
theorem immediateRange : Obligations.ImmediateRange := by
  unfold Obligations.ImmediateRange
  refine ⟨fun s => ⟨_, exec_immUpper12 s, ?field⟩, fun v => ?words⟩
  case field =>
    rw [driveImmediate_pending_se_immediate, toInt_signExtendImm]
    obtain ⟨hlo, hhi⟩ := toInt_immField_mem (upper12 s.current.se.raw)
    refine ⟨rfl, hlo, hhi, fun k h11 h32 => ?_⟩
    rw [getLsbD_signExtendImm_of_le _ h11 h32, getLsbD_signExtendImm_of_le _ (by decide) (by decide)]
  case words =>
    calc (v.toNat ≤ 0x7FF ∨ 0xFFFFF800 ≤ v.toNat)
        ↔ (-2048 ≤ v.toInt ∧ v.toInt ≤ 2047) := (toInt_mem_iff_toNat_mem v).symm
      _ ↔ ∃ g, signExtendImm g = v := (exists_signExtendImm_eq_iff v).symm
      _ ↔ ∃ raw, signExtendImm (upper12 raw) = v := upper12_surjective.exists
      _ ↔ ∃ raw, outSE raw 0b00#2 = v := Iff.rfl

end Sys2Proof.Machine
end

section
/-! PROOFS. The Register File (spec/43_register_file.md): what its update stages, and what a cycle of the block standing alone
makes of its registers and read ports. Its clock edge is `next_RF` (R182), which resets, writes or holds; the statements about
the edge are these three cases, the statements about the reads are fields of `RegisterFileCycle`. -/

namespace Sys2Proof.Machine

/-- Settles O15: the update stages the two reads and the block's clock edge, which is `next_RF`. -/
theorem registerFileUpdateMeetsItsStepFunctions : Obligations.RegisterFileUpdateMeetsItsStepFunctions := by
  unfold Obligations.RegisterFileUpdateMeetsItsStepFunctions
  intro s
  rw [updateBlock_registerFile, ← rfNext_eq_nextRF]
  rfl

/-! ### The three things `next_RF` can do (R185 to R188) -/

theorem nextRF_reset (rf : Vector Word Config.nregs) (a : RegIdx) (v : Word) (we : Bit) :
    nextRF rf 0#1 a v we = rfCleared := if_pos rfl

theorem nextRF_write {a : RegIdx} (ha : a ≠ 0#5) (rf : Vector Word Config.nregs) (v : Word) :
    nextRF rf 1#1 a v 1#1 = rfWrite rf a v := by
  simp [nextRF, rfWrite, ha]

theorem nextRF_hold {a : RegIdx} {we : Bit} (h : we = 0#1 ∨ a = 0#5) (rf : Vector Word Config.nregs) (v : Word) :
    nextRF rf 1#1 a v we = rf := by
  rcases h with rfl | rfl <;> simp [nextRF]

/-- A write to a non-zero index, word by word of the storage. -/
theorem getElem_rfWrite {a : RegIdx} (ha : a ≠ 0#5) (rf : Vector Word Config.nregs) (v : Word) {k : Nat} (hk : k < 32) :
    (rfWrite rf a v)[k] = if k = a.toNat then v else rf[k] := by
  rw [rfWrite, if_neg ha, Vector.getElem_set]
  exact if_congr eq_comm rfl rfl

/-! ### A cycle of the Register File standing alone -/

/-- What a step from `s` to `t` with the Inputs of `u` is for the Register File: both reads are of the storage before the
edge, and the edge is `next_RF`. -/
structure RegisterFileCycle (s u t : State) : Prop where
  completes : step s = .next t
  read1 : t.current.rf.readData1 = rfRead s.current.rf.storage u.current.rf.address1
  read2 : t.current.rf.readData2 = rfRead s.current.rf.storage u.current.rf.address2
  edge : t.current.rf.storage = nextRF s.current.rf.storage u.current.rf.rstN u.current.rf.address3
    u.current.rf.writeData u.current.rf.writeEnable

/-- With the address in range the cycle completes, and the block's Signals are its own function of the Inputs offered. -/
theorem exists_registerFileCycle {s u : State} (hu : takeStimulus s = .next u) (hw : u.wiring = Wiring.standAlone)
    (haddr : u.current.dm.address.toNat < 0x100) : ∃ t, RegisterFileCycle s u t := by
  obtain ⟨-, hcompletes⟩ := outOfRangeAddressFailsTheCycle s u hu hw
  obtain ⟨t, ht⟩ := hcompletes haddr
  have hrf := (standAloneCycle_of_step hu hw ht).rf
  rw [rfAfter, rfNext_eq_nextRF, (takeStimulus_eq_next hu).2.rf] at hrf
  exact ⟨t, ht, by rw [hrf], by rw [hrf], by rw [hrf]⟩

/-- Settles O16: the edge is a write, and the reads are of the storage before it. -/
theorem registerWriteIsSeenFromTheNextCycle : Obligations.RegisterWriteIsSeenFromTheNextCycle := by
  unfold Obligations.RegisterWriteIsSeenFromTheNextCycle
  intro s u hu hw haddr hrst hwe ha
  obtain ⟨t, hstep, hread1, hread2, hedge⟩ := exists_registerFileCycle hu hw haddr
  rw [hrst, hwe, nextRF_write ha] at hedge
  refine ⟨t, hstep, fun k hk => ?words, ?next, hread1, hread2⟩
  case words => rw [hedge]; exact getElem_rfWrite ha _ _ hk
  case next => rw [hedge, rfRead_rfWrite, if_pos ⟨rfl, ha⟩]

/-- Settles O17: the edge holds at index 0 whether or not a write is enabled, and a read port is `RFRead`. -/
theorem registerZeroRefusesWritesAndReadsZero : Obligations.RegisterZeroRefusesWritesAndReadsZero := by
  unfold Obligations.RegisterZeroRefusesWritesAndReadsZero
  intro s u hu hw haddr
  obtain ⟨t, hstep, hread1, hread2, hedge⟩ := exists_registerFileCycle hu hw haddr
  refine ⟨t, hstep, fun hrst ha => ?_, hread1, hread2⟩
  rw [hedge, hrst, nextRF_hold (.inr ha)]

/-- Settles O18: the edge is a reset, whatever the write Inputs are, and the reads are of the storage before it. -/
theorem registerResetBeatsWrite : Obligations.RegisterResetBeatsWrite := by
  unfold Obligations.RegisterResetBeatsWrite
  intro s u hu hw haddr hrst
  obtain ⟨t, hstep, hread1, hread2, hedge⟩ := exists_registerFileCycle hu hw haddr
  rw [hrst, nextRF_reset] at hedge
  refine ⟨t, hstep, fun k hk => ?_, hread1, hread2⟩
  rw [hedge]
  exact Vector.getElem_replicate hk

/-- Settles O19: without a write enabled or at index 0 the edge holds. -/
theorem registerHold : Obligations.RegisterHold := by
  unfold Obligations.RegisterHold
  intro s u hu hw haddr hrst hno
  obtain ⟨t, hstep, -, -, hedge⟩ := exists_registerFileCycle hu hw haddr
  exact ⟨t, hstep, by rw [hedge, hrst, nextRF_hold hno]⟩

end Sys2Proof.Machine
end

section
/-! PROOFS. The Data Memory (spec/44_data_memory.md): what a cycle of the block standing alone makes of its words and of its
read port. Its clock edge resets, writes or holds (R202, R205 to R210); the statements about the edge are these three cases, the
statements about the read are a field of `DataMemoryCycle`. -/

namespace Sys2Proof.Machine

/-! ### The three things the clock edge can do (R205 to R210) -/

theorem dmNext_reset {g : DmSignals} (hrst : g.rstN = 0#1) : dmNext g = .ok Memory.cleared := if_pos hrst

theorem dmNext_write {g : DmSignals} (haddr : g.address.toNat < 0x100) (hrst : g.rstN = 1#1) (hwe : g.writeEnable = 1#1)
    (ha : g.address.toNat % 4 = 0) : dmNext g = .ok (Memory.store g.storage (g.address.toNat / 4) g.writeData) := by
  simp [dmNext, memWrite, hrst, hwe, (wordAligned_iff _).2 ha, (inRange_iff _).2 haddr, wordIndex_eq]

theorem dmNext_hold {g : DmSignals} (hrst : g.rstN = 1#1) (hno : g.writeEnable = 0#1 ∨ g.address.toNat % 4 ≠ 0) :
    dmNext g = .ok g.storage := by
  rcases hno with hwe | ha
  · simp [dmNext, hrst, hwe]
  · simp [dmNext, memWrite, hrst, wordAligned_iff, ha]

/-! ### A cycle of the Data Memory standing alone -/

/-- What a step from `s` to `t` with the Inputs of `u` is for the Data Memory: the read is of the storage before the edge, and
the storage after it is the one the clock edge answers. -/
structure DataMemoryCycle (s u t : State) : Prop where
  completes : step s = .next t
  read : t.current.dm.readData = Memory.lookup s.current.dm.storage (u.current.dm.address.toNat / 4)
  edge : ∀ m, dmNext { u.current.dm with storage := s.current.dm.storage } = .ok m → t.current.dm.storage = m

/-- With the address in range the cycle completes, and the block's Signals are its own function of the Inputs offered. -/
theorem exists_dataMemoryCycle {s u : State} (hu : takeStimulus s = .next u) (hw : u.wiring = Wiring.standAlone)
    (haddr : u.current.dm.address.toNat < 0x100) : ∃ t, DataMemoryCycle s u t := by
  obtain ⟨-, hcompletes⟩ := outOfRangeAddressFailsTheCycle s u hu hw
  obtain ⟨t, ht⟩ := hcompletes haddr
  obtain ⟨m, hm, hdm⟩ := (standAloneCycle_of_step hu hw ht).dm
  have hstorage := (takeStimulus_eq_next hu).2.dm
  refine ⟨t, ht, ?read, fun m' hm' => ?edge⟩
  case read => rw [hdm, ← hstorage, ← wordIndex_eq]; rfl
  case edge =>
    rw [← hstorage] at hm'
    rw [hdm]
    exact Except.ok.inj (hm.symm.trans hm')

/-- Settles O20: the edge is a store, which changes the word at its index alone, and the read is of the storage before it. -/
theorem alignedWriteStoresExactlyOneWord : Obligations.AlignedWriteStoresExactlyOneWord := by
  unfold Obligations.AlignedWriteStoresExactlyOneWord
  intro s u hu hw hwf haddr hrst hwe ha
  obtain ⟨t, hstep, hread, hedge⟩ := exists_dataMemoryCycle hu hw haddr
  refine ⟨t, hstep, fun w => ?_, hread⟩
  rw [hedge _ (dmNext_write haddr hrst hwe ha), Memory.lookup_store hwf]

/-- Settles O21: at a misaligned address the edge holds, whether or not a write is enabled. -/
theorem misalignedWriteIsIgnored : Obligations.MisalignedWriteIsIgnored := by
  unfold Obligations.MisalignedWriteIsIgnored
  intro s u hu hw haddr hrst _ ha
  obtain ⟨t, hstep, hread, hedge⟩ := exists_dataMemoryCycle hu hw haddr
  exact ⟨t, hstep, hedge _ (dmNext_hold hrst (.inr ha)), hread⟩

/-- Settles O22: the read is of the storage before the edge, whatever the edge does. -/
theorem readReturnsTheAlignedWord : Obligations.ReadReturnsTheAlignedWord := by
  unfold Obligations.ReadReturnsTheAlignedWord
  intro s u hu hw haddr
  obtain ⟨t, hstep, hread, -⟩ := exists_dataMemoryCycle hu hw haddr
  exact ⟨t, hstep, hread⟩

/-- Settles O23: the edge is a reset, whatever the write Inputs are, and the read is of the storage before it. -/
theorem memoryResetBeatsWrite : Obligations.MemoryResetBeatsWrite := by
  unfold Obligations.MemoryResetBeatsWrite
  intro s u hu hw haddr hrst
  obtain ⟨t, hstep, hread, hedge⟩ := exists_dataMemoryCycle hu hw haddr
  refine ⟨t, hstep, fun w => ?_, hread⟩
  rw [hedge _ (dmNext_reset hrst)]
  exact Memory.lookup_cleared w

/-- Settles O24: without a write enabled the edge holds. -/
theorem memoryHold : Obligations.MemoryHold := by
  unfold Obligations.MemoryHold
  intro s u hu hw haddr hrst hwe
  obtain ⟨t, hstep, -, hedge⟩ := exists_dataMemoryCycle hu hw haddr
  exact ⟨t, hstep, hedge _ (dmNext_hold hrst (.inl hwe))⟩

end Sys2Proof.Machine
end

section
/-! PROOFS. The Controller (spec/45_controller.md): what each `op` and each `control_op` stages. -/

namespace Sys2Proof.Machine

/-- Settles O12: the update under any `op` is `controllerStaged`, which reads no other Input of the block. -/
theorem controllerMeetsItsTruthTable : Obligations.ControllerMeetsItsTruthTable := by
  unfold Obligations.ControllerMeetsItsTruthTable
  intro s op func3 func7 aluZero
  refine ⟨_, updateBlock_controller _, rfl, rfl, rfl, rfl, ?regWrite⟩
  case regWrite =>
    show (if op = Config.loadOpcode then 1#1 else 0#1) = 1#1 ↔ op = Config.loadOpcode
    simp

/-- Settles O9: the row is both stages, and the second's code of `control_op = 0b00` is that of an add. -/
theorem loadRowStagesItsControls : Obligations.LoadRowStagesItsControls := by
  unfold Obligations.LoadRowStagesItsControls
  exact ⟨decodeOp_load, fun s => bothStages_eq 1#1 0b00#2 0#1 0b00#2 s⟩

/-- Settles O10: both stages again, with `reg_write = 0`, for each `op` that is not the load opcode. -/
theorem otherRowStagesItsControls : Obligations.OtherRowStagesItsControls := by
  unfold Obligations.OtherRowStagesItsControls
  exact ⟨fun _ hop => decodeOp_of_ne hop, fun s _ => bothStages_eq 0#1 0b00#2 0#1 0b00#2 s⟩

/-- Settles O11: the other values of `control_op` are three, and each of their rows stages the force-zero code. -/
theorem secondStageRowsStageAluControl : Obligations.SecondStageRowsStageAluControl := by
  unfold Obligations.SecondStageRowsStageAluControl
  refine ⟨rfl, by decide, fun s => ⟨rfl, fun i hi => ?_⟩⟩
  have hforce : exec i s = .next (driveAluControl 0b111#3 s) := by
    fin_cases hi <;> rfl
  exact hforce

end Sys2Proof.Machine
end

section
/-! PROOFS. The reference datapath (spec/46_composition.md): what a cycle with every connection made within the cycle does to
the two storages, from the Inputs that are left to the environment. -/

namespace Sys2Proof.Machine

/-! ### One cycle with the wiring of R245 -/

/-- The address the ALU forms for the Data Memory: the first register read and the immediate (R245, R247). -/
def datapathAddress (g : Signals) : Word :=
  rfRead g.rf.storage g.rf.address1 + signExtendImm (upper12 g.se.raw)

/-- Without a write enabled the clock edge clears or keeps the Data Memory, whatever the address is. -/
theorem dmNext_of_no_write {g : DmSignals} (h : g.writeEnable = 0#1) :
    dmNext g = .ok (if g.rstN = 0#1 then Memory.cleared else g.storage) := by
  by_cases hrst : g.rstN = 0#1 <;> simp [dmNext, h, hrst]

theorem gatherSE_upper12 (raw : Raw) : gatherSE raw 0b00#2 = upper12 raw := rfl

/-- Up to the Data Memory only registered connections give the Register File an Input. -/
theorem beforeDataMemory_current_rf (s : State) : (beforeDataMemory s).current.rf = (copyAllRegistered s).current.rf := by
  simp [beforeDataMemory, afterReadPorts, afterController, copyDirects, controllerStaged, immediateStaged, rfReadPorts,
    aluStaged]

/-- `reg_write` stays as the Controller's update has staged it. -/
theorem beforeDataMemory_regWrite (s : State) : (beforeDataMemory s).pending.ctrl.regWrite =
    if (copyAllRegistered s).current.ctrl.op = Config.loadOpcode then 1#1 else 0#1 := by
  simp [beforeDataMemory, afterReadPorts, afterController, copyDirects, controllerStaged, immediateStaged, rfReadPorts,
    aluStaged]

section
variable {u : State} (hw : u.wiring = Wiring.reference)
include hw

theorem nothingRegistered_of_reference : NothingRegistered (restage u) :=
  .inr (show noLink .registered u.wiring = true from hw ▸ rfl)

/-- What the Data Memory's update reads: the address formed in this cycle, the second register, and no write. -/
theorem beforeDataMemory_dm_of_reference :
    (beforeDataMemory (restage u)).current.dm = { u.current.dm with
      address := datapathAddress u.current, writeEnable := 0#1
      writeData := rfRead u.current.rf.storage u.current.rf.address2 } := by
  have hcopied := copyAllRegistered_of_nothingRegistered (nothingRegistered_of_reference hw)
  simp [beforeDataMemory, afterReadPorts, afterController, hcopied, copyDirects, controllerStaged, immediateStaged,
    rfReadPorts, aluStaged, datapathAddress, outALU_add, gatherSE_upper12, hw, Wiring.reference]

/-- What the Register File's clock edge reads: `reg_write` for a load only, and the word the Data Memory reads. -/
theorem beforeEdge_rf_of_reference (m : Memory) :
    (beforeEdge (restage u) m).current.rf = { u.current.rf with
      writeEnable := if u.current.ctrl.op = Config.loadOpcode then 1#1 else 0#1
      writeData := Memory.lookup u.current.dm.storage (wordIndex (datapathAddress u.current)) } := by
  have hlinks : (beforeDataMemory (restage u)).wiring = u.wiring := (inputsOnly_beforeDataMemory (restage u)).wiring
  have hcopied := copyAllRegistered_of_nothingRegistered (nothingRegistered_of_reference hw)
  simp [beforeEdge, dmStaged, copyDirects, hlinks, hcopied, beforeDataMemory_current_rf, beforeDataMemory_regWrite,
    beforeDataMemory_dm_of_reference hw, hw, Wiring.reference]

/-- A cycle of the reference datapath fails exactly when the address formed is out of range; otherwise its clock edge clears
or keeps the Data Memory, and is `next_RF` with the word read (R246). -/
theorem cycle_cases_of_reference :
    (inRange (datapathAddress u.current) = false ∧
      cycle u = .fault (.addressOutOfRange (datapathAddress u.current))) ∨
    (inRange (datapathAddress u.current) = true ∧ ∃ t, cycle u = .next t ∧
      t.current.dm.storage = (if u.current.dm.rstN = 0#1 then Memory.cleared else u.current.dm.storage) ∧
      t.current.rf.storage = nextRF u.current.rf.storage u.current.rf.rstN u.current.rf.address3
        (Memory.lookup u.current.dm.storage (wordIndex (datapathAddress u.current)))
        (if u.current.ctrl.op = Config.loadOpcode then 1#1 else 0#1)) := by
  have hcases := cycle_cases u
  rw [beforeDataMemory_dm_of_reference hw] at hcases
  rcases hcases with ⟨hout, hfault⟩ | ⟨hin, m, hm, hnext⟩
  · exact .inl ⟨hout, hfault⟩
  · refine .inr ⟨hin, _, hnext, ?dm, ?rf⟩
    case dm =>
      rw [dmNext_of_no_write rfl] at hm
      rw [commit_current, evaluated_pending_dm]
      exact (Except.ok.inj hm).symm
    case rf =>
      rw [commit_current, evaluated_eq, rfStage, stageRf_pending_rf_storage, rfNext_eq_nextRF,
        beforeEdge_rf_of_reference hw]

end

/-! ### A step that is offered an instruction word and `rst_n` (R243, R244) -/

/-- The state after the environment has offered an instruction word and `rst_n`. -/
def offeredWord (instr : Word) (rstN : Bit) (rest : List StimulusRow) (s : State) : State :=
  assignInput .rstN rstN.toNat (assignInput .instr instr.toNat { s with stimulus := rest })

/-- Both values fit their Inputs. -/
theorem takeStimulus_word {s : State} {instr : Word} {rstN : Bit} {rest : List StimulusRow}
    (hs : s.stimulus = [(.instr, instr.toNat), (.rstN, rstN.toNat)] :: rest) :
    takeStimulus s = .next (offeredWord instr rstN rest s) := by
  have hinstr : instr.toNat < 2 ^ inputWidth .instr := instr.isLt
  have hrstN : rstN.toNat < 2 ^ inputWidth .rstN := rstN.isLt
  unfold takeStimulus
  rw [hs]
  simp only [offerRow, offer, hinstr, hrstN, if_pos, andThen_next]
  rfl

/-- The immediate field of a word is its bits 31..20: bits 24..13 of what stands above bit 6 (R162, R244). -/
theorem upper12_raw (instr : Word) : upper12 (cutWord instr).raw = instr.extractLsb' 20 12 := by
  refine BitVec.eq_of_getLsbD_eq fun k hk => ?_
  have hk25 : 13 + k < 25 := by omega
  have hbit : 7 + (13 + k) = 20 + k := by omega
  simp [upper12, cutWord, hk25, hbit]

section
variable (instr : Word) (rstN : Bit) (rest : List StimulusRow) (s : State)

theorem offeredWord_dm_rstN : (offeredWord instr rstN rest s).current.dm.rstN = rstN := BitVec.ofNat_toNat _ _
theorem offeredWord_rf_rstN : (offeredWord instr rstN rest s).current.rf.rstN = rstN := BitVec.ofNat_toNat _ _

/-- The word is cut into the Inputs it drives (R244). -/
theorem offeredWord_fields :
    (offeredWord instr rstN rest s).current.ctrl.op = (cutWord instr).op ∧
    (offeredWord instr rstN rest s).current.se.raw = (cutWord instr).raw ∧
    (offeredWord instr rstN rest s).current.rf.address1 = (cutWord instr).rs1 ∧
    (offeredWord instr rstN rest s).current.rf.address3 = (cutWord instr).rd := by
  simp [offeredWord, setInput, setInstr]

/-- The word's bits 31..20, sign-extended, are added to the register that its bits 19..15 name (R162, R244). -/
theorem datapathAddress_offeredWord :
    datapathAddress (offeredWord instr rstN rest s).current =
      rfRead s.current.rf.storage (instr.extractLsb' 15 5) + (instr.extractLsb' 20 12).signExtend 32 := by
  obtain ⟨-, hraw, hrs1, -⟩ := offeredWord_fields instr rstN rest s
  have hrf : (offeredWord instr rstN rest s).current.rf.storage = s.current.rf.storage := rfl
  rw [datapathAddress, hraw, hrs1, hrf, upper12_raw, signExtendImm_eq]
  rfl

end

/-- A step of the reference datapath that is offered a word: it fails exactly when the word's address is out of range;
otherwise it clears or keeps `dm`, and `rf` takes the word read if `op` is the load opcode (R246). -/
theorem step_cases_of_word {s : State} {instr : Word} {rstN : Bit} {rest : List StimulusRow} {addr : Word}
    (hw : s.wiring = Wiring.reference) (hs : s.stimulus = [(.instr, instr.toNat), (.rstN, rstN.toNat)] :: rest)
    (ha : addr = rfRead s.current.rf.storage (instr.extractLsb' 15 5) + (instr.extractLsb' 20 12).signExtend 32) :
    (0x100 ≤ addr.toNat ∧ step s = .fault (.addressOutOfRange addr)) ∨
    (addr.toNat < 0x100 ∧ ∃ t, step s = .next t ∧
      t.current.dm.storage = (if rstN = 0#1 then Memory.cleared else s.current.dm.storage) ∧
      t.current.rf.storage = nextRF s.current.rf.storage rstN (instr.extractLsb' 7 5)
        (Memory.lookup s.current.dm.storage (addr.toNat / 4))
        (if instr.extractLsb' 0 7 = Config.loadOpcode then 1#1 else 0#1)) := by
  have hcases := cycle_cases_of_reference (u := offeredWord instr rstN rest s) hw
  obtain ⟨hop, -, -, hrd⟩ := offeredWord_fields instr rstN rest s
  rw [datapathAddress_offeredWord, ← ha, offeredWord_dm_rstN, offeredWord_rf_rstN, hop, hrd, wordIndex_eq,
    ← step_of_takeStimulus (takeStimulus_word hs)] at hcases
  rcases hcases with ⟨hout, hfault⟩ | ⟨hin, hnext⟩
  · exact .inl ⟨Nat.not_lt.1 fun hlt => by simp [(inRange_iff addr).2 hlt] at hout, hfault⟩
  · exact .inr ⟨(inRange_iff addr).1 hin, hnext⟩

/-- Settles O49: without the load opcode the Register File holds, and the Data Memory holds for every word. -/
theorem otherWordsChangeNoStorage : Obligations.OtherWordsChangeNoStorage := by
  unfold Obligations.OtherWordsChangeNoStorage
  intro s instr rstN rest addr hw hs hop ha
  rcases step_cases_of_word hw hs ha with ⟨hout, hfault⟩ | ⟨hin, t, hnext, hdm, hrf⟩
  · exact ⟨fun hlt => absurd hlt (Nat.not_lt.2 hout), fun _ => hfault⟩
  · refine ⟨fun _ => ⟨t, hnext, ?hold, ?reset⟩, fun hge => absurd hin (Nat.not_lt.2 hge)⟩
    rw [if_neg hop] at hrf
    case hold =>
      rintro rfl
      exact ⟨hrf.trans (nextRF_hold (.inl rfl) _ _), hdm⟩
    case reset =>
      rintro rfl
      exact ⟨hrf.trans (nextRF_reset _ _ _ _), hdm⟩

end Sys2Proof.Machine
end

section
/-! PROOFS. The connection from ALU `zero` to Controller `alu_zero` (spec/46_composition.md R250). No part of a step reads
`alu_zero`, and only that connection's own copies read its link. So with both erased before it a part of a step answers the
same but for these two, and this composes, part by part, to the whole step. -/

namespace Sys2Proof.Machine

/-- The state without the link and the value of `alu_zero`. -/
def eraseAluZero (s : State) : State :=
  { s with wiring.aluZero := .environment, current.ctrl.aluZero := 0, pending.ctrl.aluZero := 0 }

/-- An outcome without the link and the value of `alu_zero`. -/
def withoutAluZero (o : Host.Outcome State Fault Refusal) : Host.Outcome State Fault Refusal :=
  andThen o fun t => .next (eraseAluZero t)

/-- A change of the state that carries over nothing from the link or the value of `alu_zero` but to these two. -/
def BlindEdit (f : State → State) : Prop :=
  ∀ s, eraseAluZero (f (eraseAluZero s)) = eraseAluZero (f s)

/-- The same of a part of a step that may fail or be refused. -/
def BlindPart (f : State → Host.Outcome State Fault Refusal) : Prop :=
  ∀ s, withoutAluZero (f (eraseAluZero s)) = withoutAluZero (f s)

/-! ### Composing parts of a step -/

theorem BlindEdit.comp {f g : State → State} (hg : BlindEdit g) (hf : BlindEdit f) : BlindEdit (g ∘ f) := fun s =>
  calc eraseAluZero (g (f (eraseAluZero s)))
    _ = eraseAluZero (g (eraseAluZero (f (eraseAluZero s)))) := (hg _).symm
    _ = eraseAluZero (g (eraseAluZero (f s))) := by rw [hf s]
    _ = eraseAluZero (g (f s)) := hg _

/-- Edits made one after the other, one for each member of a list. -/
theorem BlindEdit.foldl {α : Type} {f : State → α → State} (hf : ∀ a, BlindEdit fun s => f s a) (as : List α) :
    BlindEdit fun s => as.foldl f s := by
  induction as with
  | nil => exact fun _ => rfl
  | cons a as ih => exact ih.comp (hf a)

/-- An edit of the link and the value of `alu_zero` only. -/
theorem BlindEdit.of_eraseAluZero_eq {f : State → State} (h : ∀ s, eraseAluZero (f s) = eraseAluZero s) : BlindEdit f :=
  fun s => (h (eraseAluZero s)).trans (h s).symm

theorem BlindEdit.next {f : State → State} (hf : BlindEdit f) : BlindPart fun s => .next (f s) :=
  fun s => congrArg Host.Outcome.next (hf s)

theorem BlindPart.andThen {f g : State → Host.Outcome State Fault Refusal} (hf : BlindPart f) (hg : BlindPart g) :
    BlindPart fun s => andThen (f s) g := by
  have erase_between (o : Host.Outcome State Fault Refusal) :
      withoutAluZero (Machine.andThen o g) = Machine.andThen (withoutAluZero o) fun t => withoutAluZero (g t) := by
    cases o with
    | next t => exact (hg t).symm
    | fault r => rfl
    | refused r => rfl
  intro s
  rw [erase_between, hf s, ← erase_between]

/-! ### The environment's offer -/

theorem blindEdit_assignInput (i : InputId) (v : Nat) : BlindEdit (assignInput i v) := by
  intro s
  cases i <;> rfl

theorem blindPart_offer (i : InputId) (v : Nat) : BlindPart (offer i v) := by
  intro s
  unfold offer
  by_cases hv : v < 2 ^ inputWidth i
  · rw [if_pos hv, if_pos hv]
    exact (blindEdit_assignInput i v).next s
  · rw [if_neg hv, if_neg hv]

theorem blindPart_offerRow (row : StimulusRow) : BlindPart (offerRow row) := by
  induction row with
  | nil => exact fun _ => rfl
  | cons p row ih => exact (blindPart_offer p.1 p.2).andThen ih

/-- Whether the run has ended does not depend on the link of `alu_zero` (R250). -/
theorem blindPart_takeStimulus : BlindPart takeStimulus := by
  intro s
  cases hs : s.stimulus with
  | cons row rest =>
    unfold takeStimulus
    rw [show (eraseAluZero s).stimulus = s.stimulus from rfl, hs]
    exact blindPart_offerRow row { s with stimulus := rest }
  | nil =>
    have hs' : (eraseAluZero s).stimulus = [] := hs
    have hw' : isReference (eraseAluZero s).wiring = isReference s.wiring := isReference_aluZero s.wiring .environment
    cases hw : isReference s.wiring with
    | true => rw [takeStimulus_endOfRun hw hs, takeStimulus_endOfRun (hw'.trans hw) hs']
    | false =>
      rw [takeStimulus_held hw hs, takeStimulus_held (hw'.trans hw) hs']
      rfl

/-! ### The connections -/

theorem linkOf_eraseAluZero {c : Connection} (h : c ≠ .aluZero) (s : State) :
    linkOf (eraseAluZero s).wiring c = linkOf s.wiring c := by
  cases c
  case aluZero => exact absurd rfl h
  all_goals rfl

/-- `alu_zero` is no Output. -/
theorem readOutput_eraseAluZero (o : OutputId) (s : State) :
    readOutput o (eraseAluZero s).current = readOutput o s.current ∧
    readOutput o (eraseAluZero s).pending = readOutput o s.pending := by
  cases o <;> exact ⟨rfl, rfl⟩

/-- Whatever its link, the connection of `alu_zero` drives `alu_zero` and nothing else. -/
theorem eraseAluZero_copyDirect_aluZero (s : State) : eraseAluZero (copyDirect .aluZero s) = eraseAluZero s := by
  unfold copyDirect
  split <;> rfl

theorem eraseAluZero_copyRegistered_aluZero (s : State) : eraseAluZero (copyRegistered .aluZero s) = eraseAluZero s := by
  unfold copyRegistered
  split
  case h_1 => split <;> rfl
  all_goals rfl

theorem blindEdit_copyDirect (c : Connection) : BlindEdit (copyDirect c) := by
  by_cases hc : c = .aluZero
  · exact hc ▸ .of_eraseAluZero_eq eraseAluZero_copyDirect_aluZero
  · intro s
    unfold copyDirect
    rw [linkOf_eraseAluZero hc, (readOutput_eraseAluZero _ s).2]
    cases linkOf s.wiring c with
    | direct => exact blindEdit_assignInput _ _ s
    | registered | environment => rfl

theorem blindEdit_copyRegistered (c : Connection) : BlindEdit (copyRegistered c) := by
  by_cases hc : c = .aluZero
  · exact hc ▸ .of_eraseAluZero_eq eraseAluZero_copyRegistered_aluZero
  · intro s
    have hevaluated : (eraseAluZero s).hasEvaluated = s.hasEvaluated := rfl
    unfold copyRegistered
    rw [linkOf_eraseAluZero hc, (readOutput_eraseAluZero _ s).1, hevaluated]
    cases linkOf s.wiring c with
    | registered =>
      cases s.hasEvaluated with
      | true => exact blindEdit_assignInput _ _ s
      | false => rfl
    | direct | environment => rfl

theorem blindEdit_copyDirects (cs : List Connection) : BlindEdit (copyDirects cs) :=
  BlindEdit.foldl blindEdit_copyDirect cs

theorem blindEdit_copyAllRegistered : BlindEdit copyAllRegistered :=
  BlindEdit.foldl blindEdit_copyRegistered allConnections

/-! ### The blocks and the cycle -/

/-- The Controller accepts `alu_zero` and ignores it (R221). -/
theorem blindEdit_controllerStaged : BlindEdit controllerStaged := fun _ => rfl

theorem blindEdit_immediateStaged : BlindEdit immediateStaged := fun _ => rfl
theorem blindEdit_rfReadPorts : BlindEdit rfReadPorts := fun _ => rfl
theorem blindEdit_aluStaged : BlindEdit aluStaged := fun _ => rfl
theorem blindEdit_rfStage : BlindEdit rfStage := fun _ => rfl

theorem blindEdit_beforeDataMemory : BlindEdit beforeDataMemory :=
  have hreadPorts : BlindEdit afterReadPorts :=
    blindEdit_rfReadPorts.comp <| blindEdit_immediateStaged.comp <| (blindEdit_copyDirects [.immSrc]).comp <|
      blindEdit_controllerStaged.comp blindEdit_copyAllRegistered
  (blindEdit_copyDirects _).comp <| blindEdit_aluStaged.comp <| (blindEdit_copyDirects _).comp hreadPorts

theorem blindPart_updateDataMemory : BlindPart updateDataMemory := by
  intro s
  cases h : inRange s.current.dm.address with
  | false => rw [updateDataMemory_out_of_range h, updateDataMemory_out_of_range (s := eraseAluZero s) h]; rfl
  | true =>
    obtain ⟨m, hm, -⟩ := updateDataMemory_in_range h
    rw [updateDataMemory_of_dmNext h hm, updateDataMemory_of_dmNext (s := eraseAluZero s) h hm]
    rfl

theorem blindPart_evaluate : BlindPart evaluate := by
  rw [funext evaluate_eq]
  exact (blindEdit_beforeDataMemory.next.andThen blindPart_updateDataMemory).andThen
    (blindEdit_rfStage.comp (blindEdit_copyDirects _)).next

theorem blindEdit_restage : BlindEdit restage := fun _ => rfl
theorem blindEdit_commit : BlindEdit commit := fun _ => rfl

theorem blindPart_step : BlindPart step :=
  have hcycle : BlindPart cycle := (blindEdit_restage.next.andThen blindPart_evaluate).andThen blindEdit_commit.next
  blindPart_takeStimulus.andThen hcycle

/-! ### The whole step -/

theorem withoutAluZero_eq_fault {o : Host.Outcome State Fault Refusal} {f : Fault} :
    withoutAluZero o = .fault f ↔ o = .fault f := by
  cases o <;> simp [withoutAluZero]

theorem withoutAluZero_eq_refused {o : Host.Outcome State Fault Refusal} {r : Refusal} :
    withoutAluZero o = .refused r ↔ o = .refused r := by
  cases o <;> simp [withoutAluZero]

theorem withoutAluZero_eq_next {o : Host.Outcome State Fault Refusal} {t : State} :
    withoutAluZero o = .next t ↔ ∃ u, o = .next u ∧ eraseAluZero u = t := by
  cases o <;> simp [withoutAluZero]

/-- Settles O52: the states before the two steps are the same without the link and the value of `alu_zero`, so the steps'
outcomes are, and this leaves every fault, refusal, Output and storage. -/
theorem aluZeroConnectionChangesNothing : Obligations.AluZeroConnectionChangesNothing := by
  unfold Obligations.AluZeroConnectionChangesNothing
  intro s l
  have hstep : withoutAluZero (step { s with wiring.aluZero := l }) = withoutAluZero (step s) :=
    (blindPart_step { s with wiring.aluZero := l }).symm.trans (blindPart_step s)
  refine ⟨fun f => ?fault, fun r => ?refused, fun t ht => ?next⟩
  case fault => rw [← withoutAluZero_eq_fault, hstep, withoutAluZero_eq_fault]
  case refused => rw [← withoutAluZero_eq_refused, hstep, withoutAluZero_eq_refused]
  case next =>
    rw [ht] at hstep
    obtain ⟨t', ht', he⟩ := withoutAluZero_eq_next.1 hstep
    refine ⟨t', ht', fun o => ?outputs, congrArg (·.current.rf.storage) he, congrArg (·.current.dm.storage) he⟩
    case outputs => rw [← (readOutput_eraseAluZero o t').1, he, (readOutput_eraseAluZero o t).1]

end Sys2Proof.Machine
end

section
/-! PROOFS. The widths of the connections (spec/46_composition.md R241): an Output's value fits the Output's own width, so a
connection whose ends have equal width never copies a value that the consumer has no room for. -/

namespace Sys2Proof.Machine

/-- `outputWidth` lists the widths of the Output fields that `readOutput` reads (R24 to R28). -/
theorem readOutput_lt_two_pow_outputWidth (o : OutputId) (g : Signals) : readOutput o g < 2 ^ outputWidth o := by
  cases o <;> exact BitVec.isLt _

theorem outputWidth_source_eq_inputWidth_target (c : Connection) :
    outputWidth (source c) = inputWidth (target c) := by
  cases c <;> rfl

/-- Settles O46: the widths agree connection by connection, and an Output's value fits its producer's end. -/
theorem connectionEndsHaveEqualWidth : Obligations.ConnectionEndsHaveEqualWidth := by
  unfold Obligations.ConnectionEndsHaveEqualWidth
  intro c
  have hwidth := outputWidth_source_eq_inputWidth_target c
  exact ⟨hwidth, fun g => hwidth ▸ readOutput_lt_two_pow_outputWidth (source c) g⟩

end Sys2Proof.Machine
end

section
/-! PROOFS. Failures (spec/60_exceptions.md R260, R267): which part of a step each answer comes from. The environment's offer
can overflow a width or be refused at the end of the run, and after it the cycle can only fail on an address. -/

namespace Sys2Proof.Machine

/-- The first value of the row that does not fit ends the offer, and it is a value of the row. -/
theorem offerRow_eq_fault {row : StimulusRow} {s : State} {f : Fault} (h : offerRow row s = .fault f) :
    ∃ i v, (i, v) ∈ row ∧ 2 ^ inputWidth i ≤ v ∧ f = .widthOverflow i v := by
  induction row generalizing s with
  | nil => cases h
  | cons p row ih =>
    obtain ⟨i, v⟩ := p
    rw [offerRow] at h
    rcases offer_cases i v s with ⟨-, hoffer⟩ | ⟨hwide, hoffer⟩
    · rw [hoffer, andThen_next] at h
      obtain ⟨j, w, hmem, hwide, hf⟩ := ih h
      exact ⟨j, w, List.mem_cons_of_mem _ hmem, hwide, hf⟩
    · rw [hoffer, andThen_fault] at h
      exact ⟨i, v, List.mem_cons_self, hwide, (Host.Outcome.fault.inj h).symm⟩

/-- The environment's offer fails only on a value of its next row. -/
theorem takeStimulus_eq_fault {s : State} {f : Fault} (h : takeStimulus s = .fault f) :
    ∃ row rest i v, s.stimulus = row :: rest ∧ (i, v) ∈ row ∧ 2 ^ inputWidth i ≤ v ∧ f = .widthOverflow i v := by
  cases hs : s.stimulus with
  | nil =>
    cases hw : isReference s.wiring with
    | true => rw [takeStimulus_endOfRun hw hs] at h; cases h
    | false => rw [takeStimulus_held hw hs] at h; cases h
  | cons row rest =>
    unfold takeStimulus at h
    rw [hs] at h
    obtain ⟨i, v, hmem, hwide, hf⟩ := offerRow_eq_fault h
    exact ⟨row, rest, i, v, rfl, hmem, hwide, hf⟩

/-- An address that is not in range is at or above the end of the memory (R207). -/
theorem le_toNat_of_not_inRange {a : Word} (h : inRange a = false) : 0x100 ≤ a.toNat :=
  Nat.not_lt.1 fun hlt => Bool.false_ne_true (h.symm.trans ((inRange_iff a).2 hlt))

/-- Settles O28: the offer answers a state, a fault or a refusal. The last two end the step, and from the state it answers the
cycle completes or fails on the address that the Data Memory has once the connections have settled. -/
theorem stepHasNoOtherFailure : Obligations.StepHasNoOtherFailure := by
  unfold Obligations.StepHasNoOtherFailure
  intro s
  obtain ⟨-, step_of_fault, step_of_refused⟩ := stepRunsTheDecodedRows
  cases htake : takeStimulus s with
  | next u =>
    rw [step_of_takeStimulus htake]
    rcases cycle_cases u with ⟨hout, hfault⟩ | ⟨-, m, -, hnext⟩
    · exact .inr (.inl ⟨_, le_toNat_of_not_inRange hout, hfault⟩)
    · exact .inl ⟨_, hnext⟩
  | fault f =>
    obtain ⟨row, rest, i, v, hs, hmem, hwide, rfl⟩ := takeStimulus_eq_fault htake
    exact .inr (.inr (.inl ⟨row, rest, i, v, hs, hmem, hwide, step_of_fault s _ htake⟩))
  | refused r =>
    obtain ⟨hw, hs, rfl⟩ := takeStimulus_eq_refused.1 htake
    exact .inr (.inr (.inr ⟨hw, hs, step_of_refused s _ htake⟩))

end Sys2Proof.Machine
end

section
/-! PROOFS. The fields of a load word (spec/30_encoding.md R99, R100). -/

namespace Sys2Proof

/-- A field of a field is a field. -/
theorem extractLsb'_extractLsb' {w : Nat} (x : BitVec w) {len i k : Nat} (h : i + k ≤ len) (start : Nat) :
    (x.extractLsb' start len).extractLsb' i k = x.extractLsb' (start + i) k := by
  refine BitVec.eq_of_getLsbD_eq fun j hj => ?_
  have hlen : i + j < len := by omega
  simp [hj, hlen, Nat.add_assoc]

/-- The five fields of an encoded load. -/
theorem extractLsb'_encodeWord_lw (rd rs1 : RegIdx) (imm : ImmField) (func3 : BitVec 3) :
    (encodeWord (.lw rd rs1 imm func3)).extractLsb' 0 7 = Config.loadOpcode ∧
    (encodeWord (.lw rd rs1 imm func3)).extractLsb' 7 5 = rd ∧
    (encodeWord (.lw rd rs1 imm func3)).extractLsb' 12 3 = func3 ∧
    (encodeWord (.lw rd rs1 imm func3)).extractLsb' 15 5 = rs1 ∧
    (encodeWord (.lw rd rs1 imm func3)).extractLsb' 20 12 = imm := by
  rw [encodeWord_lw]
  exact extractLsb'_layout imm rs1 func3 rd Config.loadOpcode

/-- Settles O55: the fields are those of the layout; `rs2` and `func7` are the two parts of its immediate. -/
theorem cuttingALoadWordGivesItsFields : Obligations.CuttingALoadWordGivesItsFields := by
  unfold Obligations.CuttingALoadWordGivesItsFields
  intro rd rs1 imm func3
  have hfields := extractLsb'_encodeWord_lw rd rs1 imm func3
  generalize encodeWord (.lw rd rs1 imm func3) = instr at hfields ⊢
  obtain ⟨hop, hrd, hfunc3, hrs1, rfl⟩ := hfields
  refine ⟨hop, hrd, hfunc3, hrs1, Machine.upper12_raw instr, ?rs2, ?func7⟩
  case rs2 => rw [extractLsb'_extractLsb' instr (by decide)]; rfl
  case func7 => rw [extractLsb'_extractLsb' instr (by decide)]; rfl

end Sys2Proof
end

section
/-! PROOFS. The reference datapath (spec/46_composition.md): its step against `step_DP`, the `lw` instruction, what changes
its memory, and the end of its run. What a step that is offered a word can do is `step_cases_of_word`; `step_DP` has the same
two cases. -/

namespace Sys2Proof.Machine

/-! ### `step_DP` by cases (R246) -/

/-- The address a word forms from the registers: the one its bits 19..15 name, and its bits 31..20 sign-extended (R247). -/
def wordAddress (rf : Vector Word Config.nregs) (instr : Word) : Word :=
  rfRead rf (instr.extractLsb' 15 5) + (instr.extractLsb' 20 12).signExtend 32

/-- The ALU of `step_DP` is given an add of that register and the immediate, so its result is the word's address. -/
theorem outALU_of_word (rf : Vector Word Config.nregs) (instr : Word) :
    (outALU (secondStageCode 0b00#2) (rfRead rf (cutWord instr).rs1) (outSE (cutWord instr).raw 0b00#2)).1 =
      wordAddress rf instr := by
  have hcode : secondStageCode 0b00#2 = 0b000#3 := rfl
  rw [hcode, outALU_add, outSE_eq_signExtendImm, gatherSE_upper12, upper12_raw, signExtendImm_eq]
  rfl

/-- `step_DP` is `step_DM` without a write at the word's address, followed by `next_RF` with the word read. -/
theorem stepDP_eq (rf : Vector Word Config.nregs) (dm : Memory) (instr : Word) (rstN : Bit) :
    stepDP rf dm instr rstN =
      (stepDM dm rstN (wordAddress rf instr) (rfRead rf (cutWord instr).rs2) 0#1).map fun p =>
        (nextRF rf rstN (instr.extractLsb' 7 5) p.1 (if instr.extractLsb' 0 7 = Config.loadOpcode then 1#1 else 0#1),
          p.2) := by
  rw [← outALU_of_word]
  unfold stepDP
  simp only [outCTRL]
  cases stepDM dm rstN _ (rfRead rf (cutWord instr).rs2) 0#1 <;> rfl

theorem stepDM_out_of_range {addr : Word} (h : 0x100 ≤ addr.toNat) (dm : Memory) (rstN : Bit) (v : Word) (we : Bit) :
    stepDM dm rstN addr v we = .error (.addressOutOfRange addr) := by
  have hindex : Config.memWords ≤ wordIndex addr := by
    rw [wordIndex_eq]
    exact (Nat.le_div_iff_mul_le (by decide)).2 h
  exact if_pos hindex

/-- Without a write enabled `step_DM` clears or keeps the memory. -/
theorem stepDM_of_no_write {addr : Word} (h : addr.toNat < 0x100) (dm : Memory) (rstN : Bit) (v : Word) :
    stepDM dm rstN addr v 0#1 =
      .ok (Memory.lookup dm (addr.toNat / 4), if rstN = 0#1 then Memory.cleared else dm) := by
  rw [← wordIndex_eq]
  exact stepDM_of_dmNext (g := ⟨rstN, addr, v, 0#1, 0, dm⟩) ((inRange_iff addr).2 h) (dmNext_of_no_write rfl)

/-- Settles O47: `step_DP` and the step have the same two cases, by the word's address. -/
theorem referenceDatapathMeetsStepDP : Obligations.ReferenceDatapathMeetsStepDP := by
  unfold Obligations.ReferenceDatapathMeetsStepDP
  intro s instr rstN rest hw hs
  rw [stepDP_eq]
  have hcases := step_cases_of_word (addr := wordAddress s.current.rf.storage instr) hw hs rfl
  rcases hcases with ⟨hout, hfault⟩ | ⟨hin, t, hnext, hdm, hrf⟩
  · rw [stepDM_out_of_range hout]
    exact hfault
  · rw [stepDM_of_no_write hin]
    exact ⟨t, hnext, hrf, hdm⟩

/-! ### `lw` (R247) -/

/-- What a register reads after an edge that writes to index `a`: the value, unless it is another register or `a` is 0. -/
theorem rfRead_nextRF_write (rf : Vector Word Config.nregs) (a i : RegIdx) (v : Word) :
    rfRead (nextRF rf 1#1 a v 1#1) i = if i = a ∧ a ≠ 0#5 then v else rfRead rf i := by
  by_cases ha : a = 0#5
  · rw [nextRF_hold (.inr ha), if_neg fun h => h.2 ha]
  · rw [nextRF_write ha, rfRead_rfWrite]

/-- Settles O48: cut by the layout of R100, the word is a load to `rd` from the address that `rs1` and `imm` form. -/
theorem lwLoadsTheAddressedWord : Obligations.LwLoadsTheAddressedWord := by
  unfold Obligations.LwLoadsTheAddressedWord
  intro s rd rs1 imm func3 rstN rest addr hw hs ha
  have hfields := extractLsb'_encodeWord_lw rd rs1 imm func3
  generalize encodeWord (.lw rd rs1 imm func3) = instr at hs hfields
  obtain ⟨hop, rfl, -, rfl, rfl⟩ := hfields
  rcases step_cases_of_word hw hs ha with ⟨hout, hfault⟩ | ⟨hin, t, hnext, hdm, hrf⟩
  · exact ⟨fun hlt => absurd hlt (Nat.not_lt.2 hout), fun _ => hfault⟩
  · refine ⟨fun _ => ⟨t, hnext, ?load, ?reset⟩, fun hge => absurd hin (Nat.not_lt.2 hge)⟩
    rw [if_pos hop] at hrf
    case load =>
      rintro rfl
      exact ⟨hdm, fun i => by rw [hrf, rfRead_nextRF_write]⟩
    case reset =>
      rintro rfl
      exact ⟨hdm, hrf.trans (nextRF_reset _ _ _ _)⟩

/-! ### Only reset changes memory (R251) -/

/-- The Controller never asks for a memory write (R227), so where its connection is made within the cycle none is
enabled. -/
theorem writeEnable_of_memWrite_direct {s t : State} (hlink : s.wiring.memWrite = .direct) (h : step s = .next t) :
    t.current.dm.writeEnable = 0#1 := by
  obtain ⟨u, hu, -⟩ := step_eq_next h
  obtain ⟨hcarried, -⟩ := connectionsCarryTheirProducersValue s u t hu h .memWrite
  obtain ⟨-, -, hctrl, -⟩ := everyCycleMeetsTheBlockFunctions s t h
  have hmemWrite : t.current.ctrl.memWrite = 0#1 := congrArg CtrlOut.memWrite hctrl
  exact (BitVec.eq_of_toNat_eq (hcarried hlink)).trans hmemWrite

/-- Settles O50: no write is enabled, so the edge holds unless it resets, and a cleared memory reads 0 everywhere. -/
theorem onlyResetChangesMemoryInTheReferenceDatapath : Obligations.OnlyResetChangesMemoryInTheReferenceDatapath := by
  unfold Obligations.OnlyResetChangesMemoryInTheReferenceDatapath
  intro s t hw h
  have hcycle := dmCycle_of_step h
  refine ⟨fun hrst => ?hold, fun hcleared => ?read⟩
  case hold =>
    have hwe := writeEnable_of_memWrite_direct (by rw [hw]; rfl) h
    exact Except.ok.inj (hcycle.edge.symm.trans (dmNext_hold hrst (.inl hwe)))
  case read => rw [hcycle.read, hcleared]; exact Memory.lookup_cleared _

/-! ### What a completing step keeps (log entries 4, 9 and 10) -/

@[simp] theorem copyDirects_stimulus (cs : List Connection) (s : State) : (copyDirects cs s).stimulus = s.stimulus :=
  List.foldlRecOn (motive := fun t => t.stimulus = s.stimulus) cs _ rfl fun t ht c _ =>
    (copyDirect_stimulus c t).trans ht

@[simp] theorem copyAllRegistered_stimulus (s : State) : (copyAllRegistered s).stimulus = s.stimulus :=
  List.foldlRecOn (motive := fun t => t.stimulus = s.stimulus) allConnections _ rfl fun t ht c _ =>
    (copyRegistered_stimulus c t).trans ht

/-- No part of an evaluation touches the rows. -/
theorem evaluated_stimulus (s : State) (m : Memory) : (evaluated s m).stimulus = s.stimulus := by
  simp [evaluated, beforeDataMemory, afterReadPorts, afterController, controllerStaged, immediateStaged, rfReadPorts,
    aluStaged, rfStage]

/-- Settles O37: the offer takes the row, the evaluation keeps wiring and rows, and the commit marks the blocks. -/
theorem stepKeepsWiringAndConsumesItsRow : Obligations.StepKeepsWiringAndConsumesItsRow := by
  unfold Obligations.StepKeepsWiringAndConsumesItsRow
  intro s t h
  obtain ⟨u, hu, hc⟩ := step_eq_next h
  obtain ⟨hrow, hoffer⟩ := takeStimulus_eq_next hu
  obtain ⟨-, m, -, rfl⟩ := cycle_eq_next hc
  have hwiring := (inputsOnly_evaluated (restage u) m).wiring
  exact ⟨hwiring.trans hoffer.wiring, (evaluated_stimulus (restage u) m).trans hrow, rfl⟩

/-! ### A run of the reference datapath (R252) -/

theorem step_endOfRun {s : State} (hw : isReference s.wiring = true) (hs : s.stimulus = []) :
    step s = .refused .endOfRun := by
  unfold step
  rw [takeStimulus_endOfRun hw hs, andThen_refused]

/-- In the reference datapath a completing step takes exactly one row. -/
theorem length_stimulus_of_step {s t : State} (hw : isReference s.wiring = true) (h : step s = .next t) :
    s.stimulus.length = t.stimulus.length + 1 := by
  obtain ⟨-, htail, -⟩ := stepKeepsWiringAndConsumesItsRow s t h
  cases hs : s.stimulus with
  | nil => rw [step_endOfRun hw hs] at h; cases h
  | cons row rest => rw [htail, hs]; rfl

/-- A run of the reference datapath stays one, and each of its cycles has taken one row. -/
theorem length_stimulus_of_run {s : State} {ts : List State} (hw : isReference s.wiring = true) (hrun : Run s ts) :
    isReference (ts.getLastD s).wiring = true ∧
      s.stimulus.length = (ts.getLastD s).stimulus.length + ts.length := by
  induction ts generalizing s with
  | nil => exact ⟨hw, rfl⟩
  | cons t ts ih =>
    obtain ⟨hstep, hrest⟩ := hrun
    obtain ⟨hwiring, -⟩ := stepKeepsWiringAndConsumesItsRow s t hstep
    obtain ⟨hlast, hlength⟩ := ih (hwiring ▸ hw) hrest
    rw [List.getLastD_cons, length_stimulus_of_step hw hstep, hlength]
    exact ⟨hlast, rfl⟩

/-- Settles O51: the rows that a run has not taken are those its last state still has, and with none left the step is
refused. -/
theorem referenceDatapathRunEndsWithItsRows : Obligations.ReferenceDatapathRunEndsWithItsRows := by
  unfold Obligations.ReferenceDatapathRunEndsWithItsRows
  intro s ts hw hrun
  obtain ⟨hlast, hlength⟩ := length_stimulus_of_run hw hrun
  exact ⟨by omega, fun hall => step_endOfRun hlast (List.length_eq_zero_iff.1 (by omega))⟩

end Sys2Proof.Machine
end

section
/-! PROOFS. Reset (spec/70_reset_and_hazards.md): one cycle of both clocked blocks standing alone, each with its own
`rst_n`. -/

namespace Sys2Proof.Machine

/-- With the address in range the cycle completes, and it is a cycle of both clocked blocks. -/
theorem exists_clockedCycle {s u : State} (hu : takeStimulus s = .next u) (hw : u.wiring = Wiring.standAlone)
    (haddr : u.current.dm.address.toNat < 0x100) : ∃ t, RegisterFileCycle s u t ∧ DataMemoryCycle s u t := by
  obtain ⟨t, hrf⟩ := exists_registerFileCycle hu hw haddr
  obtain ⟨t', hdm⟩ := exists_dataMemoryCycle hu hw haddr
  obtain rfl : t = t' := Host.Outcome.next.inj (hrf.completes.symm.trans hdm.completes)
  exact ⟨t, hrf, hdm⟩

section
variable {s u t : State}

theorem RegisterFileCycle.reset (h : RegisterFileCycle s u t) (hrst : u.current.rf.rstN = 0#1) :
    t.current.rf.storage = rfCleared := by
  rw [h.edge, hrst, nextRF_reset]

theorem RegisterFileCycle.hold (h : RegisterFileCycle s u t) (hrst : u.current.rf.rstN = 1#1)
    (hwe : u.current.rf.writeEnable = 0#1) : t.current.rf.storage = s.current.rf.storage := by
  rw [h.edge, hrst, nextRF_hold (.inl hwe)]

theorem DataMemoryCycle.reset (h : DataMemoryCycle s u t) (hrst : u.current.dm.rstN = 0#1) :
    t.current.dm.storage = Memory.cleared :=
  h.edge _ (dmNext_reset hrst)

theorem DataMemoryCycle.hold (h : DataMemoryCycle s u t) (hrst : u.current.dm.rstN = 1#1)
    (hwe : u.current.dm.writeEnable = 0#1) : t.current.dm.storage = s.current.dm.storage :=
  h.edge _ (dmNext_hold hrst (.inl hwe))

end

/-- Settles O44: both edges are resets, and the cleared storages are those of construction. -/
theorem oneResetCycleRestoresConstructionStorage : Obligations.OneResetCycleRestoresConstructionStorage := by
  unfold Obligations.OneResetCycleRestoresConstructionStorage
  intro s u hu hw haddr hrf hdm
  obtain ⟨t, hrfCycle, hdmCycle⟩ := exists_clockedCycle hu hw haddr
  exact ⟨t, hrfCycle.completes, hrfCycle.reset hrf, hdmCycle.reset hdm⟩

/-- Settles O45: the one edge is a reset, the other holds, and a cycle of blocks that stand alone changes no Input. -/
theorem resetsAreSeparate : Obligations.ResetsAreSeparate := by
  unfold Obligations.ResetsAreSeparate
  intro s u hu hw haddr
  obtain ⟨t, hrfCycle, hdmCycle⟩ := exists_clockedCycle hu hw haddr
  have hstep := hrfCycle.completes
  have hinputs := standAloneCycleChangesNoInput s u t hu hw hstep
  exact ⟨fun hrf hdm hwe => ⟨t, hstep, hrfCycle.reset hrf, hdmCycle.hold hdm hwe, hinputs⟩,
    fun hdm hrf hwe => ⟨t, hstep, hdmCycle.reset hdm, hrfCycle.hold hrf hwe, hinputs⟩⟩

end Sys2Proof.Machine
end

section
/-! PROOFS. The environment's offer (spec/40_update_engine.md R130): a row is assigned value by value up to the first value
that does not fit its Input. -/

namespace Sys2Proof.Machine

theorem takeStimulus_cons {s : State} {row : StimulusRow} {rest : List StimulusRow} (hs : s.stimulus = row :: rest) :
    takeStimulus s = offerRow row { s with stimulus := rest } := by
  unfold takeStimulus
  rw [hs]

/-- Giving each Input of a row its value, in the row's order (log entry 22). -/
def assignRow (row : StimulusRow) (s : State) : State :=
  row.foldl (fun t p => assignInput p.1 p.2 t) s

theorem assignRow_current (row : StimulusRow) (s : State) :
    (assignRow row s).current = row.foldl (fun g p => setInput p.1 p.2 g) s.current :=
  (List.foldl_hom State.current fun t p => (assignInput_current p.1 p.2 t).symm).symm

theorem rowFits_cons {i : InputId} {v : Nat} {row : StimulusRow} :
    rowFits ((i, v) :: row) = true ↔ v < 2 ^ inputWidth i ∧ rowFits row = true := by
  simp [rowFits]

/-- A row whose values all fit is assigned, and what follows it is offered then. -/
theorem offerRow_append {before : StimulusRow} (h : rowFits before = true) (after : StimulusRow) (s : State) :
    offerRow (before ++ after) s = offerRow after (assignRow before s) := by
  induction before generalizing s with
  | nil => rfl
  | cons p before ih =>
    obtain ⟨i, v⟩ := p
    obtain ⟨hv, hbefore⟩ := rowFits_cons.1 h
    calc offerRow ((i, v) :: before ++ after) s
      _ = andThen (offer i v s) (offerRow (before ++ after)) := rfl
      _ = offerRow (before ++ after) (assignInput i v s) := by rw [offer, if_pos hv, andThen_next]
      _ = offerRow after (assignRow ((i, v) :: before) s) := ih hbefore _

theorem offerRow_of_rowFits {row : StimulusRow} (h : rowFits row = true) (s : State) :
    offerRow row s = .next (assignRow row s) := by
  have happend := offerRow_append h [] s
  rwa [List.append_nil] at happend

/-- A value that does not fit ends the offer, whatever comes after it. -/
theorem offerRow_of_too_wide {i : InputId} {v : Nat} (h : 2 ^ inputWidth i ≤ v) (after : StimulusRow) (s : State) :
    offerRow ((i, v) :: after) s = .fault (.widthOverflow i v) := by
  rw [offerRow, offer, if_neg (Nat.not_lt.2 h), andThen_fault]

/-- Settles O27: the values before the first that does not fit are assigned, and its fault ends the offer and the step. -/
theorem tooWideValueIsWidthOverflow : Obligations.TooWideValueIsWidthOverflow := by
  unfold Obligations.TooWideValueIsWidthOverflow
  intro s row rest hs
  have htake := takeStimulus_cons hs
  refine ⟨fun hfits => ?assigned, fun before after i v hrow hbefore hwide => ?fault⟩
  case assigned =>
    rw [offerRow_of_rowFits hfits] at htake
    exact ⟨_, htake, assignRow_current _ _, (takeStimulus_eq_next htake).1.trans (by rw [hs]; rfl)⟩
  case fault =>
    obtain ⟨-, step_of_fault, -⟩ := stepRunsTheDecodedRows
    rw [hrow, offerRow_append hbefore, offerRow_of_too_wide hwide] at htake
    exact step_of_fault s _ htake

end Sys2Proof.Machine
end
